-- ==== Sys2Proof/Word.lean ====
section
/-! DEFINITION. The word types of the frame decoder core (spec/00_scope.md R10, R11). Every value the core
computes is an unsigned bit vector: a byte, or a 16-bit value made of two bytes. -/

namespace Sys2Proof

/-- A byte of the stream or of the payload buffer (R11). -/
abbrev Byte := BitVec 8

/-- A 16-bit value: a length, a checksum sum, a trailer or a measurement field (R11). -/
abbrev Half := BitVec 16

/-- The 21-bit decode key formed at each rising clock edge (R73). -/
abbrev Key := BitVec 21

end Sys2Proof
end

