-- ==== Sys2Proof/Config.lean ====
section
/-! DEFINITION. What is fixed for the machine: the constants of R7, the state codes of R21, the open width
SERIAL_ERR_W (R9), the input pins (R32), and the free values that stand for an environment the spec leaves open. -/

namespace Sys2Proof

/-- MARKER0 (R7). -/
abbrev Config.marker0 : Byte := 0x42#8

/-- MARKER1 (R7). -/
abbrev Config.marker1 : Byte := 0x4D#8

/-- PAYLOAD_LEN (R7): the number of payload bytes, and of addresses of the payload buffer (R50). -/
abbrev Config.payloadLen : Nat := 26

/-- LEN_EXPECTED (R7): the only length the core takes. -/
abbrev Config.lenExpected : Half := 28#16

/-- The number of bytes of a frame (R8). -/
abbrev Config.frameLen : Nat := 32

/-- The number of measurement fields, FIELD_COUNT (R7). -/
abbrev Config.fieldCount : Nat := 12

/-- One less than SERIAL_ERR_W. R9 leaves the width open (any width from 1 up), so nothing can evaluate it.
Log entry 1. -/
opaque Config.serialErrWPred : Nat

/-- SERIAL_ERR_W, the width of a hard-error value (R9): any number from 1 up. Log entry 1. -/
abbrev Config.serialErrW : Nat := Config.serialErrWPred + 1

/-- A hard-error value of the byte source: opaque bits, copied and never interpreted (R9, R28). -/
abbrev SerialErr := BitVec Config.serialErrW

/-- IDLE (R21). -/
abbrev St.idle : BitVec 3 := 0b000#3

/-- SYNC (R21). -/
abbrev St.sync : BitVec 3 := 0b001#3

/-- LEN (R21). -/
abbrev St.len : BitVec 3 := 0b010#3

/-- PAY (R21). -/
abbrev St.pay : BitVec 3 := 0b011#3

/-- CHK (R21). -/
abbrev St.chk : BitVec 3 := 0b100#3

/-- The two inputs the host drives, as sampled at one rising edge (R32). -/
structure HostPins where
  rst   : Bool
  start : Bool
  deriving DecidableEq, Repr, Inhabited

/-- The four inputs the byte source drives, as sampled at one rising edge (R32). -/
structure SourcePins where
  inValid : Bool
  inIsErr : Bool
  inData  : Byte
  inErr   : SerialErr
  deriving DecidableEq, Repr, Inhabited

/-- What the host drives at an edge that State does not list. R104 lets it assert either signal at any edge, so the
value is free. Log entry 2. -/
opaque Config.freeHost : Nat → HostPins

/-- What the byte source presents after the slots State lists. R104 lets it present a byte, a hard error or nothing,
so the value is free. Log entry 2. -/
opaque Config.freeSource : Nat → SourcePins

end Sys2Proof
end

