-- ==== Sys2Proof/Machine/State.lean ====
section
/-! DEFINITION. The state of the core: the registers of R20, and beside them the model's own record of the environment
(the pins of the coming edges). Reset values (R41), faults and refusals. -/

namespace Sys2Proof.Machine

/-- The payload buffer (R26, R50): the listed bytes, addresses rising; an address that is not listed reads
`Memory.unlisted`. -/
abbrev Memory := List Host.Cell

/-- What an unlisted address of the buffer reads as: 0x00, the value the spec gives every entry at reset (R41). -/
abbrev Memory.unlisted : Byte := 0#8

/-- The canonical form: addresses strictly rising and inside the buffer (R50), no entry equal to what an unlisted address
reads as. -/
abbrev Memory.wf (mem : Memory) : Prop :=
  mem.Pairwise (fun c d => c.1 < d.1) ∧ ∀ c ∈ mem, c.1 < Config.payloadLen ∧ c.2 ≠ Memory.unlisted

/-- The kind of result (R80, R301). The names are the source's and normative. Their two-bit codes are in
Machine/Flags.lean. -/
inductive ResKind where
  /-- A Measurement. -/
  | ok
  /-- InvalidLength. -/
  | invalidLength
  /-- InvalidData. -/
  | invalidData
  /-- Serial. -/
  | serial
  deriving DecidableEq, Repr

/-- The registers of R20, then the environment. -/
structure State where
  /-- FSM state (R21). Three bits, so that the reserved codes of R84 exist. -/
  st    : BitVec 3
  /-- Marker match position (R22). -/
  m     : BitVec 1
  /-- Byte index (R23). -/
  idx   : BitVec 5
  /-- Received length field (R24). -/
  len   : Half
  /-- Checksum accumulator (R25). -/
  acc   : Half
  /-- Payload buffer (R26). -/
  buf   : Memory
  /-- Received trailer (R27). -/
  trl   : Half
  /-- Captured hard-error value (R28). -/
  serr  : SerialErr
  /-- Result valid (R29). -/
  rv    : Bool
  /-- Result kind (R29, R80). -/
  rk    : ResKind
  /-- The model's own: what the host drives at the coming edges, the next edge first (R104). -/
  host       : List HostPins
  /-- The model's own: the input stream (R50, R51), what the byte source presents, the next slot first. A slot with
  `inValid` stays until it is accepted (the hold duty of R104); one without is one edge of WouldBlock (R32). -/
  source     : List SourcePins
  /-- The model's own: how many edges the host has driven beyond `host` (the index of the next free value). -/
  hostFree   : Nat
  /-- The model's own: how many slots the source has presented beyond `source` (the index of the next free value). -/
  sourceFree : Nat
  deriving DecidableEq, Repr

/-- The state after reset (R41). The environment's lists are empty: no run has been chosen (log entry 2). -/
def State.reset : State where
  st := St.idle
  m := 0
  idx := 0
  len := 0
  acc := 0
  buf := []
  trl := 0
  serr := 0
  rv := false
  rk := .ok
  host := []
  source := []
  hostFree := 0
  sourceFree := 0

/-- What stops the machine. The core itself never stops (R105, R222), and no step does. -/
inductive Fault where
  /-- Raised by the meaning of PAY.BYTE on an index from 26 up, which is no buffer address (R50) and which the table never
  gives the row (R84 takes those keys). Safe: the machine stops and nothing can be proved of a run that goes on. -/
  | bufferAddress
  deriving DecidableEq, Repr

/-- Why a step has no meaning. -/
inductive Refusal where
  /-- An arm of exec that has no meaning yet. No arm raises it. Safe. -/
  | notModelled (mnemonic : String)
  /-- Raised by step on a key that has no row of the decode table. R74 says there is none, so no step raises it. Safe. -/
  | noDecodeRow
  deriving DecidableEq, Repr

end Sys2Proof.Machine
end

