-- ==== Sys2Proof/Machine/Operands.lean ====
section
/-! DEFINITION. Operand assembly: bytes into 16-bit values, always big-endian and unsigned (R52, R71). -/

namespace Sys2Proof.Machine

/-- `zext_16(b)` (spec/00_scope.md section 4). -/
def zext16 (b : Byte) : Half := b.setWidth 16

/-- `{first, second}`: the first-received byte is the more significant (R52, R71). -/
def pair (first second : Byte) : Half := zext16 first <<< 8 ||| zext16 second

/-- Bits 15:8. -/
def hiByte (v : Half) : Byte := v.extractLsb' 8 8

/-- Bits 7:0. -/
def loByte (v : Half) : Byte := v.extractLsb' 0 8

/-- `v[15:8] <- b` (R140, R183). -/
def setHi (v : Half) (b : Byte) : Half := pair b (loByte v)

/-- `v[7:0] <- b` (R141, R184). -/
def setLo (v : Half) (b : Byte) : Half := pair (hiByte v) b

end Sys2Proof.Machine
end

