-- ==== Sys2Proof/Machine/Flags.lean ====
section
/-! DEFINITION. The 1-bit status values (R38) and every comparison the core makes (R11): busy, in_ready, the length check,
the checksum check, and which kind of result is shown (R35). The core has no flags in the processor sense. -/

namespace Sys2Proof.Machine

/-- `busy`: st is SYNC, LEN, PAY or CHK (R21, R33). -/
def State.busy (s : State) : Bool :=
  s.st == St.sync || s.st == St.len || s.st == St.pay || s.st == St.chk

/-- `in_ready` is 1 exactly when the core is busy (R34). -/
def State.inReady (s : State) : Bool := s.busy

/-- The two-bit codes of R80. -/
def ResKind.code : ResKind → BitVec 2
  | .ok => 0b00
  | .invalidLength => 0b01
  | .invalidData => 0b10
  | .serial => 0b11

/-- A result of kind `k` is shown: rv = 1 and rk names the kind (R35). -/
def State.shows (s : State) (k : ResKind) : Bool := s.rv && s.rk == k

/-- The length check compares all 16 bits with 28 (R141). -/
def lengthOk (l : Half) : Bool := l == Config.lenExpected

/-- The checksum check compares all 16 bits of the trailer with the accumulator (R184). -/
def checksumOk (trailer acc : Half) : Bool := trailer == acc

/-- The accumulator after one more byte: a sum of single bytes modulo 2^16 (R180, R181). -/
def addByte (acc : Half) (b : Byte) : Half := acc + zext16 b

/-- The accumulator at the lock: the two marker bytes (R123). -/
def markerSum : Half := zext16 Config.marker0 + zext16 Config.marker1

end Sys2Proof.Machine
end

