-- ==== Sys2Proof/Machine/Ops.lean ====
section
/-! DEFINITION. The shared operations: the payload buffer, the start and the end of a transaction (the core's analogue of
return from and entry to an exception, R303, R305), reset and recovery. -/

namespace Sys2Proof.Machine

/-- The byte at an address: the listed one, else what an unlisted address reads as. -/
def Memory.readByte : Memory → Nat → Byte
  | [], _ => Memory.unlisted
  | (a, v) :: rest, x => if x = a then v else Memory.readByte rest x

/-- Write one byte and keep the canonical form: writing what an unlisted address reads as removes the entry. -/
def Memory.writeByte : Memory → Nat → Byte → Memory
  | [], x, b => if b = Memory.unlisted then [] else [(x, b)]
  | (a, v) :: rest, x, b =>
    if x < a then if b = Memory.unlisted then (a, v) :: rest else (x, b) :: (a, v) :: rest
    else if x = a then if b = Memory.unlisted then rest else (x, b) :: rest
    else (a, v) :: Memory.writeByte rest x b

/-- `MemRead(i, 1)` on the payload buffer (R53). -/
def State.bufByte (s : State) (i : Nat) : Byte := s.buf.readByte i

/-- `MemWrite(i, 1, b)` is `buf[i] <- b` for the legal addresses 0 to 25 (R50, R53). Another address does not exist. -/
def State.storeBuf (s : State) (i : Nat) (b : Byte) : Option State :=
  if i < Config.payloadLen then some { s with buf := s.buf.writeByte i b } else none

/-- `acc <- acc + zext_16(b)` (R180). -/
def State.accumulate (s : State) (b : Byte) : State := { s with acc := addByte s.acc b }

/-- The end of a transaction, by an error or by success (R303; spec/00_scope.md section 4 gives `complete OK` the same
five writes, log entry 5). The value registers hold the result; there is no vector and no handler. -/
def State.endTransaction (s : State) (k : ResKind) : State :=
  { s with rk := k, rv := true, st := St.idle, idx := 0, m := 0 }

/-- `raise InvalidLength` (R303): `len` holds the value reported. -/
def State.raiseInvalidLength (s : State) : State := s.endTransaction .invalidLength

/-- `raise InvalidData` (R303): `acc` and `trl` hold the values reported (R185). -/
def State.raiseInvalidData (s : State) : State := s.endTransaction .invalidData

/-- `raise Serial` (R300, R303): `serr` holds the value reported. -/
def State.raiseSerial (s : State) (e : SerialErr) : State := { s with serr := e }.endTransaction .serial

/-- `complete OK` (R184). -/
def State.completeOk (s : State) : State := s.endTransaction .ok

/-- The start of a transaction, the analogue of a return from an exception (R305): START clears every working register
and the previous result (R100). -/
def State.startTransaction (s : State) : State :=
  { s with st := St.sync, m := 0, idx := 0, len := 0, acc := 0, buf := [], trl := 0, serr := 0, rv := false, rk := .ok }

/-- Every register takes its value after reset (R400, R41). The environment is no register of the core. -/
def State.resetRegisters (s : State) : State :=
  { State.reset with
    host := s.host, source := s.source, hostFree := s.hostFree, sourceFree := s.sourceFree }

/-- The recovery of R84: back to IDLE without a result, other registers unchanged. -/
def State.recover (s : State) : State :=
  { s with st := St.idle, m := 0, idx := 0, rv := false, rk := .ok }

end Sys2Proof.Machine
end

