-- ==== Sys2Proof/Machine/Checksum.lean ====
section
/-! DEFINITION. The checksum trailer (R183, R184). The trailer bytes never enter the accumulator (R180). -/

namespace Sys2Proof.Machine

/-- CHK.HI (R183): the high trailer byte. -/
def execChkHi (b : Byte) (s : State) : Host.Outcome State Fault Refusal :=
  .next { s with trl := setHi s.trl b, idx := 1 }

/-- CHK.LO (R184): the low trailer byte and the comparison on all 16 bits. -/
def execChkLo (b : Byte) (s : State) : Host.Outcome State Fault Refusal :=
  let s' := { s with trl := setLo s.trl b }
  if checksumOk s'.trl s'.acc then .next s'.completeOk else .next s'.raiseInvalidData

end Sys2Proof.Machine
end

