-- ==== Sys2Proof/Machine/Command.lean ====
section
/-! DEFINITION. RESET (R400) and the measure command: IDLE.START, IDLE.HOLD, BUSY.WAIT (R100 to R103). -/

namespace Sys2Proof.Machine

/-- RESET (R400). -/
def execReset (s : State) : Host.Outcome State Fault Refusal := .next s.resetRegisters

/-- IDLE.START (R100): begin one transaction. -/
def execIdleStart (s : State) : Host.Outcome State Fault Refusal := .next s.startTransaction

/-- IDLE.HOLD (R101): no register changes. -/
def execIdleHold (s : State) : Host.Outcome State Fault Refusal := .next s

/-- BUSY.WAIT (R102): no register changes; the read is retried at the next edge. -/
def execBusyWait (s : State) : Host.Outcome State Fault Refusal := .next s

end Sys2Proof.Machine
end

