-- ==== Sys2Proof/Machine/Errors.lean ====
section
/-! DEFINITION. The serial error (R300) and the recovery from an unreachable state (R84). -/

namespace Sys2Proof.Machine

/-- BUSY.SERR (R300): the hard error is copied bit for bit and ends the transaction. -/
def execBusySerr (e : SerialErr) (s : State) : Host.Outcome State Fault Refusal := .next (s.raiseSerial e)

/-- ILLEGAL (R84). -/
def execIllegal (s : State) : Host.Outcome State Fault Refusal := .next s.recover

end Sys2Proof.Machine
end

