-- ==== Sys2Proof/Machine/Length.lean ====
section
/-! DEFINITION. The length field (R140, R141). -/

namespace Sys2Proof.Machine

/-- LEN.HI (R140): the high length byte; there is no early exit. -/
def execLenHi (b : Byte) (s : State) : Host.Outcome State Fault Refusal :=
  .next { s.accumulate b with len := setHi s.len b, idx := 1 }

/-- LEN.LO (R141): the low length byte and the length check on all 16 bits. -/
def execLenLo (b : Byte) (s : State) : Host.Outcome State Fault Refusal :=
  let s' := { s.accumulate b with len := setLo s.len b }
  if lengthOk s'.len then .next { s' with st := St.pay, idx := 0 } else .next s'.raiseInvalidLength

end Sys2Proof.Machine
end

