-- ==== Sys2Proof/Machine/Payload.lean ====
section
/-! DEFINITION. Payload capture (R160, R161). -/

namespace Sys2Proof.Machine

/-- PAY.BYTE (R160): payload byte `idx`, from 0 to 24. An index from 26 up is no buffer address, and the table gives the row
none (R84). -/
def execPayByte (idx : BitVec 5) (b : Byte) (s : State) : Host.Outcome State Fault Refusal :=
  match s.storeBuf idx.toNat b with
  | some s' => .next { s'.accumulate b with idx := idx + 1 }
  | none => .fault .bufferAddress

/-- PAY.LAST (R161): payload byte 25. -/
def execPayLast (b : Byte) (s : State) : Host.Outcome State Fault Refusal :=
  match s.storeBuf 25 b with
  | some s' => .next { s'.accumulate b with st := St.chk, idx := 0 }
  | none => .fault .bufferAddress

end Sys2Proof.Machine
end

