-- ==== Sys2Proof/Machine/Sync.lean ====
section
/-! DEFINITION. The synchronization scan (R120 to R123). A mismatch sets the match counter to 0 and the byte is not compared
again with MARKER0 (spec/90_conflicts.md C2). -/

namespace Sys2Proof.Machine

/-- SYNC.HIT0 (R120): the first marker byte. -/
def execSyncHit0 (s : State) : Host.Outcome State Fault Refusal := .next { s with m := 1 }

/-- SYNC.MISS0 (R121): not the first marker byte, whichever it is. -/
def execSyncMiss0 (_b : Byte) (s : State) : Host.Outcome State Fault Refusal := .next { s with m := 0 }

/-- SYNC.HIT1 (R123), the lock: the accumulator takes the two marker bytes. -/
def execSyncHit1 (s : State) : Host.Outcome State Fault Refusal :=
  .next { s with st := St.len, idx := 0, m := 0, acc := markerSum }

/-- SYNC.MISS1 (R122): not the second marker byte; 0x42 too sets m to 0. -/
def execSyncMiss1 (_b : Byte) (s : State) : Host.Outcome State Fault Refusal := .next { s with m := 0 }

end Sys2Proof.Machine
end

