-- ==== Sys2Proof/Syntax.lean ====
section
/-! DEFINITION. The rows of the decode table (R75, spec/opcode_table.json), one constructor each. The core has no
instruction set (R1): a row is the transition one rising clock edge takes, and it plays the part of an instruction. -/

namespace Sys2Proof

/-- A transition of the core with its operands (the table's source_fields): `b` is the accepted byte, `e` the accepted
hard error, `idx` the buffer index. SYNC.HIT0 and SYNC.HIT1 fix their byte, so they have no operand. -/
inductive Instr where
  /-- RESET, R400. -/
  | reset
  /-- ILLEGAL, R84: recovery from a state no run from reset reaches. -/
  | illegal
  /-- IDLE.START, R100. -/
  | idleStart
  /-- IDLE.HOLD, R101. -/
  | idleHold
  /-- BUSY.SERR, R300. -/
  | busySerr (e : SerialErr)
  /-- BUSY.WAIT, R102. -/
  | busyWait
  /-- SYNC.HIT0, R120. -/
  | syncHit0
  /-- SYNC.MISS0, R121. -/
  | syncMiss0 (b : Byte)
  /-- SYNC.HIT1, R123. -/
  | syncHit1
  /-- SYNC.MISS1, R122. -/
  | syncMiss1 (b : Byte)
  /-- LEN.HI, R140. -/
  | lenHi (b : Byte)
  /-- LEN.LO, R141. -/
  | lenLo (b : Byte)
  /-- PAY.LAST, R161. -/
  | payLast (b : Byte)
  /-- PAY.BYTE, R160. -/
  | payByte (idx : BitVec 5) (b : Byte)
  /-- CHK.HI, R183. -/
  | chkHi (b : Byte)
  /-- CHK.LO, R184. -/
  | chkLo (b : Byte)
  deriving DecidableEq, Repr

end Sys2Proof
end

