-- ==== Sys2Proof/Machine/Dispatch.lean ====
section
/-! DEFINITION. One arm per row of the decode table. -/

namespace Sys2Proof.Machine

def exec (i : Instr) (s : State) : Host.Outcome State Fault Refusal :=
  match i with
  | .reset => Sys2Proof.Machine.execReset s
  | .illegal => Sys2Proof.Machine.execIllegal s
  | .idleStart => Sys2Proof.Machine.execIdleStart s
  | .idleHold => Sys2Proof.Machine.execIdleHold s
  | .busySerr e => Sys2Proof.Machine.execBusySerr e s
  | .busyWait => Sys2Proof.Machine.execBusyWait s
  | .syncHit0 => Sys2Proof.Machine.execSyncHit0 s
  | .syncMiss0 b => Sys2Proof.Machine.execSyncMiss0 b s
  | .syncHit1 => Sys2Proof.Machine.execSyncHit1 s
  | .syncMiss1 b => Sys2Proof.Machine.execSyncMiss1 b s
  | .lenHi b => Sys2Proof.Machine.execLenHi b s
  | .lenLo b => Sys2Proof.Machine.execLenLo b s
  | .payLast b => Sys2Proof.Machine.execPayLast b s
  | .payByte idx b => Sys2Proof.Machine.execPayByte idx b s
  | .chkHi b => Sys2Proof.Machine.execChkHi b s
  | .chkLo b => Sys2Proof.Machine.execChkLo b s

end Sys2Proof.Machine
end

