-- ==== Sys2Proof/WellFormed.lean ====
section
/-! DEFINITION. The operands a row admits: the guards that R75 expresses by row priority. -/

namespace Sys2Proof

/-- The operands are ones the decode table can give the row: SYNC.MISS0 is a byte other than MARKER0 (R121), SYNC.MISS1
one other than MARKER1 (R122), PAY.BYTE an index from 0 to 24 (R160). Every other row takes every operand (R86). -/
def Instr.wf : Instr → Bool
  | .reset => true
  | .illegal => true
  | .idleStart => true
  | .idleHold => true
  | .busySerr _ => true
  | .busyWait => true
  | .syncHit0 => true
  | .syncMiss0 b => b != Config.marker0
  | .syncHit1 => true
  | .syncMiss1 b => b != Config.marker1
  | .lenHi _ => true
  | .lenLo _ => true
  | .payLast _ => true
  | .payByte idx _ => decide (idx.toNat ≤ 24)
  | .chkHi _ => true
  | .chkLo _ => true

end Sys2Proof
end

