-- ==== Sys2Proof/Decode.lean ====
section
/-! DEFINITION. The decode key (R73), the decode table with its priority order (R74, R75), the decoder, the encoder, and
the choice of transition in the words of R76. -/

namespace Sys2Proof

/-- The decode key, bit 20 first: rst, st, m, idx, start, in_valid, in_is_err, in_data (R73). -/
def Key.pack (rst : Bool) (st : BitVec 3) (m : BitVec 1) (idx : BitVec 5) (start inValid inIsErr : Bool)
    (inData : Byte) : Key :=
  BitVec.ofBool rst ++ st ++ m ++ idx ++ BitVec.ofBool start ++ BitVec.ofBool inValid ++ BitVec.ofBool inIsErr ++ inData

/-- Key bit 20 (R73). -/
def Key.rst (k : Key) : Bool := k.getLsbD 20

/-- Key bits 19:17 (R73). -/
def Key.st (k : Key) : BitVec 3 := k.extractLsb' 17 3

/-- Key bit 16 (R73). -/
def Key.m (k : Key) : BitVec 1 := k.extractLsb' 16 1

/-- Key bits 15:11 (R73). -/
def Key.idx (k : Key) : BitVec 5 := k.extractLsb' 11 5

/-- Key bit 10 (R73). -/
def Key.start (k : Key) : Bool := k.getLsbD 10

/-- Key bit 9 (R73). -/
def Key.inValid (k : Key) : Bool := k.getLsbD 9

/-- Key bit 8 (R73). -/
def Key.inIsErr (k : Key) : Bool := k.getLsbD 8

/-- Key bits 7:0 (R73). -/
def Key.inData (k : Key) : Byte := k.extractLsb' 0 8

/-- One match and mask pair of the decode table. -/
structure Pattern where
  value : Key
  mask  : Key

/-- A key has the pattern when `(key & mask) = match` (R74). -/
def Pattern.fits (p : Pattern) (k : Key) : Bool := (k &&& p.mask) == p.value

/-- A row of the decode table (R75): its number, its name, its match and mask pairs, and how its operands are read off
the key and in_err (which is an operand of R300 only, R73). -/
structure Row where
  priority : Nat
  mnemonic : String
  patterns : List Pattern
  operands : Key → SerialErr → Instr

/-- The twelve match and mask pairs of row 2 that R75 and opcode_table.json list (their prose says eleven: log entry 4). -/
def illegalPatterns : List Pattern :=
  [⟨0x0A0000#21, 0x1E0000#21⟩, ⟨0x0C0000#21, 0x1C0000#21⟩,
   ⟨0x048000#21, 0x1E8000#21⟩, ⟨0x044000#21, 0x1EC000#21⟩, ⟨0x042000#21, 0x1EE000#21⟩, ⟨0x041000#21, 0x1EF000#21⟩,
   ⟨0x088000#21, 0x1E8000#21⟩, ⟨0x084000#21, 0x1EC000#21⟩, ⟨0x082000#21, 0x1EE000#21⟩, ⟨0x081000#21, 0x1EF000#21⟩,
   ⟨0x06D000#21, 0x1EF000#21⟩, ⟨0x06E000#21, 0x1EE000#21⟩]

/-- The decode table in priority order (R75). -/
def rows : List Row :=
  [⟨1, "RESET", [⟨0x100000#21, 0x100000#21⟩], fun _ _ => .reset⟩,
   ⟨2, "ILLEGAL", illegalPatterns, fun _ _ => .illegal⟩,
   ⟨3, "IDLE.START", [⟨0x000400#21, 0x1E0400#21⟩], fun _ _ => .idleStart⟩,
   ⟨4, "IDLE.HOLD", [⟨0x000000#21, 0x1E0400#21⟩], fun _ _ => .idleHold⟩,
   ⟨5, "BUSY.SERR", [⟨0x000300#21, 0x100300#21⟩], fun _ e => .busySerr e⟩,
   ⟨6, "BUSY.WAIT", [⟨0x000000#21, 0x100200#21⟩], fun _ _ => .busyWait⟩,
   ⟨7, "SYNC.HIT0", [⟨0x020242#21, 0x1F03FF#21⟩], fun _ _ => .syncHit0⟩,
   ⟨8, "SYNC.MISS0", [⟨0x020200#21, 0x1F0300#21⟩], fun k _ => .syncMiss0 k.inData⟩,
   ⟨9, "SYNC.HIT1", [⟨0x03024D#21, 0x1F03FF#21⟩], fun _ _ => .syncHit1⟩,
   ⟨10, "SYNC.MISS1", [⟨0x030200#21, 0x1F0300#21⟩], fun k _ => .syncMiss1 k.inData⟩,
   ⟨11, "LEN.HI", [⟨0x040200#21, 0x1EFB00#21⟩], fun k _ => .lenHi k.inData⟩,
   ⟨12, "LEN.LO", [⟨0x040A00#21, 0x1EFB00#21⟩], fun k _ => .lenLo k.inData⟩,
   ⟨13, "PAY.LAST", [⟨0x06CA00#21, 0x1EFB00#21⟩], fun k _ => .payLast k.inData⟩,
   ⟨14, "PAY.BYTE", [⟨0x060200#21, 0x1E0300#21⟩], fun k _ => .payByte k.idx k.inData⟩,
   ⟨15, "CHK.HI", [⟨0x080200#21, 0x1EFB00#21⟩], fun k _ => .chkHi k.inData⟩,
   ⟨16, "CHK.LO", [⟨0x080A00#21, 0x1EFB00#21⟩], fun k _ => .chkLo k.inData⟩]

/-- A key has a row when it has one of the row's patterns. -/
def Row.fits (r : Row) (k : Key) : Bool := r.patterns.any (·.fits k)

/-- The row a key selects: the first one it has (R74). -/
def selectedRow (k : Key) : Option Row := rows.find? (·.fits k)

/-- The decoder: the transition of the first row the key has, with its operands. -/
def decode (k : Key) (e : SerialErr) : Option Instr := (selectedRow k).map (·.operands k e)

/-- Why a number is no instruction. -/
inductive DecodeError where
  /-- A number with a bit above bit 20 set is no decode key (R73). -/
  | notAKey
  /-- A key that no row of the table has. R74 says there is none. -/
  | noRow
  deriving DecidableEq, Repr

/-- The decoder on any number, rejecting by name. -/
def decodeWord (w : Nat) (e : SerialErr) : Except DecodeError Instr :=
  if w < 2 ^ 21 then
    match decode (BitVec.ofNat 21 w) e with
    | some i => .ok i
    | none => .error .noRow
  else .error .notAKey

/-- What the decoder reads from a table row's word: the 21 key bits, with in_err (no bits in the table) zero. -/
def decodeTableWord (_nbits w : Nat) : Option Instr :=
  match decodeWord w 0 with
  | .ok i => some i
  | .error _ => none

/-- The encoder: a key and an in_err value that select the transition, from the patterns of R75. Every bit a pattern
leaves open is 0, but st, which ILLEGAL (the first pattern, st = 101) and the two busy rows (SYNC) need (log entry 3). -/
def encode : Instr → Key × SerialErr
  | .reset => (Key.pack true 0 0 0 false false false 0, 0)
  | .illegal => (Key.pack false 0b101 0 0 false false false 0, 0)
  | .idleStart => (Key.pack false St.idle 0 0 true false false 0, 0)
  | .idleHold => (Key.pack false St.idle 0 0 false false false 0, 0)
  | .busySerr e => (Key.pack false St.sync 0 0 false true true 0, e)
  | .busyWait => (Key.pack false St.sync 0 0 false false false 0, 0)
  | .syncHit0 => (Key.pack false St.sync 0 0 false true false Config.marker0, 0)
  | .syncMiss0 b => (Key.pack false St.sync 0 0 false true false b, 0)
  | .syncHit1 => (Key.pack false St.sync 1 0 false true false Config.marker1, 0)
  | .syncMiss1 b => (Key.pack false St.sync 1 0 false true false b, 0)
  | .lenHi b => (Key.pack false St.len 0 0 false true false b, 0)
  | .lenLo b => (Key.pack false St.len 0 1 false true false b, 0)
  | .payLast b => (Key.pack false St.pay 0 25 false true false b, 0)
  | .payByte idx b => (Key.pack false St.pay 0 idx false true false b, 0)
  | .chkHi b => (Key.pack false St.chk 0 0 false true false b, 0)
  | .chkLo b => (Key.pack false St.chk 0 1 false true false b, 0)

/-- The mnemonic of the instruction's row in spec/opcode_table.json. -/
def Instr.mnemonic : Instr → String
  | .reset => "RESET"
  | .illegal => "ILLEGAL"
  | .idleStart => "IDLE.START"
  | .idleHold => "IDLE.HOLD"
  | .busySerr _ => "BUSY.SERR"
  | .busyWait => "BUSY.WAIT"
  | .syncHit0 => "SYNC.HIT0"
  | .syncMiss0 _ => "SYNC.MISS0"
  | .syncHit1 => "SYNC.HIT1"
  | .syncMiss1 _ => "SYNC.MISS1"
  | .lenHi _ => "LEN.HI"
  | .lenLo _ => "LEN.LO"
  | .payLast _ => "PAY.LAST"
  | .payByte _ _ => "PAY.BYTE"
  | .chkHi _ => "CHK.HI"
  | .chkLo _ => "CHK.LO"

/-- The pairs of st and idx that no run from reset reaches (R84): a reserved st, an idx of 2 or more in LEN or CHK, an idx
of 26 or more in PAY. -/
def unreachable (st : BitVec 3) (idx : BitVec 5) : Bool :=
  decide (5 ≤ st.toNat)
    || ((st == St.len || st == St.chk) && decide (2 ≤ idx.toNat))
    || (st == St.pay && decide (26 ≤ idx.toNat))

/-- The choice of transition in the words of R76, from the fields of the key: a second reading of the table, which the
machine does not use. -/
def transitionFor (rst : Bool) (st : BitVec 3) (m : BitVec 1) (idx : BitVec 5) (start inValid inIsErr : Bool)
    (inData : Byte) (e : SerialErr) : Instr :=
  if rst then .reset
  else if unreachable st idx then .illegal
  else if st = St.idle then if start then .idleStart else .idleHold
  else if !inValid then .busyWait
  else if inIsErr then .busySerr e
  else if st = St.sync then
    if m = 0#1 then if inData = Config.marker0 then .syncHit0 else .syncMiss0 inData
    else if inData = Config.marker1 then .syncHit1 else .syncMiss1 inData
  else if st = St.len then if idx = 0#5 then .lenHi inData else .lenLo inData
  else if st = St.pay then if idx = 25#5 then .payLast inData else .payByte idx inData
  else if idx = 0#5 then .chkHi inData
  else .chkLo inData

end Sys2Proof
end

