-- ==== Sys2Proof/Machine/Edge.lean ====
section
/-! DEFINITION. One rising clock edge as the core sees it: the sampled pins, the handshake (R31), the decode key (R73), and
how the edge moves the environment on. -/

namespace Sys2Proof.Machine

/-- The host's pins at the coming edge: the next listed ones, else the free value (log entry 2). -/
def State.hostPins (s : State) : HostPins :=
  match s.host with
  | p :: _ => p
  | [] => Config.freeHost s.hostFree

/-- The byte source's pins at the coming edge: the next listed slot, else the free value (log entry 2). -/
def State.sourcePins (s : State) : SourcePins :=
  match s.source with
  | p :: _ => p
  | [] => Config.freeSource s.sourceFree

/-- The coming edge accepts a response: `rst` = 0, `in_valid` = 1 and `in_ready` = 1 (R31). -/
def State.accepts (s : State) : Bool := !s.hostPins.rst && s.sourcePins.inValid && s.inReady

/-- The decode key of the coming edge (R73). -/
def State.edgeKey (s : State) : Key :=
  Key.pack s.hostPins.rst s.st s.m s.idx s.hostPins.start s.sourcePins.inValid s.sourcePins.inIsErr s.sourcePins.inData

/-- `in_err` at the coming edge: not in the key, an operand of R300 only (R73). -/
def State.edgeErr (s : State) : SerialErr := s.sourcePins.inErr

/-- The host drives its next pins. -/
def State.dropHost (s : State) : State :=
  match s.host with
  | _ :: rest => { s with host := rest }
  | [] => { s with hostFree := s.hostFree + 1 }

/-- The byte source moves to its next slot. -/
def State.dropSource (s : State) : State :=
  match s.source with
  | _ :: rest => { s with source := rest }
  | [] => { s with sourceFree := s.sourceFree + 1 }

/-- The coming edge uses up the source's slot: it accepts the response, which is then consumed (R56), or the slot holds no
response (R32). A response that is not accepted is held (R104). -/
def State.slotPasses (s : State) : Bool := !s.sourcePins.inValid || s.accepts

/-- The environment after the coming edge; the registers are left alone. -/
def State.passEdge (s : State) : State :=
  if s.slotPasses then s.dropHost.dropSource else s.dropHost

/-- Place a decode key at the coming edge: st, m and idx come from the registers and the other five fields from the pins
(R73), with in_err 0. The pins are put before those already listed. -/
def State.placeKey (s : State) (k : Key) : State :=
  { s with
    st := k.st, m := k.m, idx := k.idx,
    host := ⟨k.rst, k.start⟩ :: s.host,
    source := ⟨k.inValid, k.inIsErr, k.inData, 0⟩ :: s.source }

end Sys2Proof.Machine
end

