-- ==== Sys2Proof/Machine/Step.lean ====
section
/-! DEFINITION. One step is one rising clock edge. -/

namespace Sys2Proof.Machine

/-- One rising edge (R73, R74): the key selects a transition, the environment moves on (R31, R56), and the transition
writes the registers. -/
def step (s : State) : Host.Outcome State Fault Refusal :=
  match Sys2Proof.decode s.edgeKey s.edgeErr with
  | some i => exec i s.passEdge
  | none => .refused .noDecodeRow

/-- The state whose coming edge forms the decode key `w` (its low 21 bits, R73). Log entry 6. -/
def State.withFetchWord (s : State) (_nbits w : Nat) : State := s.placeKey (BitVec.ofNat 21 w)

end Sys2Proof.Machine
end

