-- ==== Sys2Proof/Machine/Outputs.lean ====
section
/-! DEFINITION. The frame-payload extractor (R200, R201) and the output signals (R33, R35): functions of the registers. -/

namespace Sys2Proof.Machine

/-- Field `k` of the payload: `{buf[2k], buf[2k+1]}` (R200). -/
def Memory.field (buf : Memory) (k : Nat) : Half := pair (buf.readByte (2 * k)) (buf.readByte (2 * k + 1))

/-- A triple of mass concentrations, smallest threshold first (R201). -/
structure Concentrations where
  pm1_0  : Half
  pm2_5  : Half
  pm10_0 : Half
  deriving DecidableEq, Repr

/-- A sextuple of counts, smallest threshold first (R201). -/
structure Absolutes where
  pm0_3  : Half
  pm0_5  : Half
  pm1_0  : Half
  pm2_5  : Half
  pm5_0  : Half
  pm10_0 : Half
  deriving DecidableEq, Repr

/-- The decoded result of one frame (R201). -/
structure Measurement where
  std : Concentrations
  atm : Concentrations
  abs : Absolutes
  deriving DecidableEq, Repr

/-- `parse(buf)` (R200) with the layout of R201; bytes 24 and 25 are not read (R202). -/
def parse (buf : Memory) : Measurement where
  std := ⟨buf.field 0, buf.field 1, buf.field 2⟩
  atm := ⟨buf.field 3, buf.field 4, buf.field 5⟩
  abs := ⟨buf.field 6, buf.field 7, buf.field 8, buf.field 9, buf.field 10, buf.field 11⟩

/-- The measurement whose fields all read 0 (R35). -/
def Measurement.zero : Measurement := ⟨⟨0, 0, 0⟩, ⟨0, 0, 0⟩, ⟨0, 0, 0, 0, 0, 0⟩⟩

/-- The output signals (R33); `res` holds the twelve measurement ports. -/
structure Outputs where
  inReady        : Bool
  busy           : Bool
  resValid       : Bool
  resKind        : BitVec 2
  res            : Measurement
  resLen         : Half
  resChkComputed : Half
  resChkTrailer  : Half
  resSerialErr   : SerialErr
  deriving DecidableEq, Repr

/-- The outputs as functions of the registers, each result output gated by its kind (R33, R35). -/
def State.outputs (s : State) : Outputs where
  inReady := s.inReady
  busy := s.busy
  resValid := s.rv
  resKind := s.rk.code
  res := if s.shows .ok then parse s.buf else Measurement.zero
  resLen := if s.shows .invalidLength then s.len else 0
  resChkComputed := if s.shows .invalidData then s.acc else 0
  resChkTrailer := if s.shows .invalidData then s.trl else 0
  resSerialErr := if s.shows .serial then s.serr else 0

end Sys2Proof.Machine
end

