-- ==== Sys2Proof/Machine/Stimulus.lean ====
section
/-! DEFINITION. The stimulus notation (R87): the events of a program and the edges they stand for. -/

namespace Sys2Proof.Machine

/-- An event of a stimulus program (R87). -/
inductive Event where
  /-- `RESET`: one edge with rst = 1. -/
  | reset
  /-- `START`: one edge with start = 1. -/
  | start
  /-- `BYTES`: one accepted byte per listed byte, in order. -/
  | bytes (bs : List Byte)
  /-- `WAIT n`: n edges with in_valid = 0. -/
  | wait (n : Nat)
  /-- `ERR value`: one accepted hard error. -/
  | err (e : SerialErr)
  deriving DecidableEq, Repr

/-- A slot that presents a byte. -/
def byteSlot (b : Byte) : SourcePins := ⟨true, false, b, 0⟩

/-- A slot that presents a hard error. -/
def errSlot (e : SerialErr) : SourcePins := ⟨true, true, 0, e⟩

/-- One edge without a response. -/
def absentSlot : SourcePins := ⟨false, false, 0, 0⟩

/-- What the host drives during an event, edge by edge. -/
def Event.hostPins : Event → List HostPins
  | .reset => [⟨true, false⟩]
  | .start => [⟨false, true⟩]
  | .bytes bs => bs.map fun _ => ⟨false, false⟩
  | .wait n => List.replicate n ⟨false, false⟩
  | .err _ => [⟨false, false⟩]

/-- What the byte source presents during an event; it presents nothing at a RESET or a START edge (log entry 7). -/
def Event.sourcePins : Event → List SourcePins
  | .reset => [absentSlot]
  | .start => [absentSlot]
  | .bytes bs => bs.map byteSlot
  | .wait n => List.replicate n absentSlot
  | .err e => [errSlot e]

/-- The state with a stimulus program as its coming edges. -/
def State.withStimulus (s : State) (p : List Event) : State :=
  { s with host := p.flatMap Event.hostPins, source := p.flatMap Event.sourcePins }

end Sys2Proof.Machine
end

