-- ==== Sys2Proof/Machine/Transaction.lean ====
section
/-! DEFINITION. One measure transaction as a function of the responses it accepts (R220): the reference the edge-level
machine is held to. It uses neither the registers nor the decode table. -/

namespace Sys2Proof.Machine

/-- A response of the byte source (R220). -/
inductive Response where
  | byte (b : Byte)
  | err (e : SerialErr)
  deriving DecidableEq, Repr

/-- The result of a transaction (R220, R301). -/
inductive Result where
  | ok (fields : Measurement)
  | invalidLength (received : Half)
  | invalidData (computed trailer : Half)
  | serial (e : SerialErr)
  deriving DecidableEq, Repr

/-- The response a slot presents, if it presents one (R32). -/
def slotResponse (p : SourcePins) : Option Response :=
  if p.inValid then some (if p.inIsErr then .err p.inErr else .byte p.inData) else none

/-- The responses of a sequence of slots, waits left out (R102). -/
def responses (slots : List SourcePins) : List Response := slots.filterMap slotResponse

/-- How a phase of reading ends: with a value after some number of responses, with a hard error at a position, or not yet. -/
inductive Reading (α : Type) where
  | done (a : α) (n : Nat)
  | failed (e : SerialErr) (n : Nat)
  | short
  deriving DecidableEq, Repr

/-- The scan of R125: `matched` says that the byte before was a 0x42 that counts (m = 1), `n` how many responses were
read. A 0x4D directly after such a byte locks; a 0x42 counts only where the byte before did not. -/
def scanFrom (matched : Bool) (n : Nat) : List Response → Reading Unit
  | [] => .short
  | .err e :: _ => .failed e (n + 1)
  | .byte b :: rest =>
    if matched && b == Config.marker1 then .done () (n + 1)
    else scanFrom (!matched && b == Config.marker0) (n + 1) rest

/-- Read `k` bytes; `n` is how many responses were read before. -/
def takeBytes : Nat → Nat → List Response → Reading (List Byte)
  | 0, n, _ => .done [] n
  | _ + 1, _, [] => .short
  | _ + 1, n, .err e :: _ => .failed e (n + 1)
  | k + 1, n, .byte b :: rest =>
    match takeBytes k (n + 1) rest with
    | .done bs n' => .done (b :: bs) n'
    | .failed e n' => .failed e n'
    | .short => .short

/-- The value of a big-endian byte pair, in exact arithmetic (R71). -/
def pairValue : List Byte → Nat
  | [hi, lo] => hi.toNat * 256 + lo.toNat
  | _ => 0

/-- The sum the trailer must equal (R220): the markers, the length bytes and the payload, modulo 65536. -/
def frameSum (payload : List Byte) : Nat :=
  (0x42 + 0x4D + 0x00 + 0x1C + (payload.map BitVec.toNat).sum) % 65536

/-- Field `k` of a payload given as its 26 bytes (R203). -/
def payloadField (p : List Byte) (k : Nat) : Half :=
  BitVec.ofNat 16 ((p.getD (2 * k) 0).toNat * 256 + (p.getD (2 * k + 1) 0).toNat)

/-- `parse(p)` on the payload bytes (R201, R203). -/
def parsePayload (p : List Byte) : Measurement where
  std := ⟨payloadField p 0, payloadField p 1, payloadField p 2⟩
  atm := ⟨payloadField p 3, payloadField p 4, payloadField p 5⟩
  abs := ⟨payloadField p 6, payloadField p 7, payloadField p 8, payloadField p 9, payloadField p 10, payloadField p 11⟩

/-- The trailer and the result of a frame whose payload is `p` (R220). -/
def trailerPhase (p : List Byte) (n : Nat) (rs : List Response) : Option (Result × Nat) :=
  match takeBytes 2 n (rs.drop n) with
  | .short => none
  | .failed e i => some (.serial e, i)
  | .done t n' =>
    if pairValue t = frameSum p then some (.ok (parsePayload p), n')
    else some (.invalidData (BitVec.ofNat 16 (frameSum p)) (BitVec.ofNat 16 (pairValue t)), n')

/-- The payload and what follows (R220). -/
def payloadPhase (n : Nat) (rs : List Response) : Option (Result × Nat) :=
  match takeBytes 26 n (rs.drop n) with
  | .short => none
  | .failed e i => some (.serial e, i)
  | .done p n' => trailerPhase p n' rs

/-- The length and what follows (R220). -/
def lengthPhase (n : Nat) (rs : List Response) : Option (Result × Nat) :=
  match takeBytes 2 n (rs.drop n) with
  | .short => none
  | .failed e i => some (.serial e, i)
  | .done l n' =>
    if pairValue l = 28 then payloadPhase n' rs else some (.invalidLength (BitVec.ofNat 16 (pairValue l)), n')

/-- The transaction function (R220): the result of a transaction that reads the responses `rs`, and how many it consumes;
`none` while `rs` holds no end of the transaction (R222). -/
def transaction (rs : List Response) : Option (Result × Nat) :=
  match scanFrom false 0 rs with
  | .short => none
  | .failed e i => some (.serial e, i)
  | .done _ j => lengthPhase j rs

/-- The result the outputs show, if one is shown (R33, R35, R80). -/
def State.result (s : State) : Option Result :=
  if s.outputs.resValid then
    match s.outputs.resKind with
    | 0b00#2 => some (.ok s.outputs.res)
    | 0b01#2 => some (.invalidLength s.outputs.resLen)
    | 0b10#2 => some (.invalidData s.outputs.resChkComputed s.outputs.resChkTrailer)
    | _ => some (.serial s.outputs.resSerialErr)
  else none

/-- A well-formed frame with the payload `p` (R70): markers, length 28, payload, checksum. -/
def frameBytes (p : List Byte) : List Byte :=
  [0x42, 0x4D, 0x00, 0x1C] ++ p ++ [BitVec.ofNat 8 (frameSum p / 256), BitVec.ofNat 8 (frameSum p)]

end Sys2Proof.Machine
end

