-- ==== Sys2Proof/Safety.lean ====
section
/-! DEFINITION. The terms statements use: the invariant of reachable states (R30), the law of the accumulator (R180), the
environment's duties (R104), and what an edge leaves of the stream. -/

namespace Sys2Proof.Machine

/-- The invariant of every state reachable from reset (R30), with the canonical form of the buffer. -/
structure State.Inv (s : State) : Prop where
  kind_without_result : s.rv = false → s.rk = .ok
  state_not_reserved  : s.st.toNat ≤ 4
  index_in_len_chk    : s.st = St.len ∨ s.st = St.chk → s.idx.toNat ≤ 1
  index_in_pay        : s.st = St.pay → s.idx.toNat ≤ 25
  index_elsewhere     : s.st = St.idle ∨ s.st = St.sync → s.idx = 0
  match_outside_sync  : s.st ≠ St.sync → s.m = 0
  result_only_in_idle : s.rv = true → s.st = St.idle
  buffer_canonical    : s.buf.wf

/-- The sum of the first `n` payload bytes of the buffer, in exact arithmetic. -/
def Memory.sum (buf : Memory) (n : Nat) : Nat := ((List.range n).map fun i => (buf.readByte i).toNat).sum

/-- The checksum of the marker, the length 28 and the first `n` payload bytes (R180), modulo 65536. -/
def Memory.checksum (buf : Memory) (n : Nat) : Nat := (0x42 + 0x4D + 0x00 + 0x1C + buf.sum n) % 65536

/-- What the working registers hold at each point of a transaction (R24 to R27, R100, R180, R186). -/
structure State.Work (s : State) : Prop where
  cleared_in_sync : s.st = St.sync → s.len = 0 ∧ s.acc = 0 ∧ s.buf = [] ∧ s.trl = 0 ∧ s.serr = 0
  before_len_hi   : s.st = St.len → s.idx = 0 → s.len = 0 ∧ s.acc.toNat = 0x42 + 0x4D
  before_len_lo   : s.st = St.len → s.idx = 1 →
    s.len.toNat % 256 = 0 ∧ s.acc.toNat = 0x42 + 0x4D + s.len.toNat / 256
  in_pay          : s.st = St.pay → s.len = 28 ∧ s.acc.toNat = s.buf.checksum s.idx.toNat
  in_chk          : s.st = St.chk → s.len = 28 ∧ s.acc.toNat = s.buf.checksum 26
  after_ok        : s.rv = true → s.rk = .ok → s.len = 28 ∧ s.acc.toNat = s.buf.checksum 26 ∧ s.trl = s.acc
  after_bad_len   : s.rv = true → s.rk = .invalidLength → s.len ≠ 28
  after_bad_data  : s.rv = true → s.rk = .invalidData → s.len = 28 ∧ s.acc.toNat = s.buf.checksum 26 ∧ s.trl ≠ s.acc

/-- The state is idle: st is IDLE (R21). -/
abbrev State.idle (s : State) : Prop := s.st = St.idle

/-- The state is busy and not one of those R84 recovers from. -/
abbrev State.reading (s : State) : Prop := s.busy = true ∧ unreachable s.st s.idx = false

/-- The host does not assert rst at these edges. -/
abbrev noReset (hs : List HostPins) : Prop := ∀ p ∈ hs, p.rst = false

/-- The host asserts neither rst nor start at these edges. -/
abbrev noCommand (hs : List HostPins) : Prop := ∀ p ∈ hs, p.rst = false ∧ p.start = false

/-- The source's list after an edge that accepts nothing: a presented response is held (R104). -/
def State.sourceIfHeld (s : State) : List SourcePins := if s.sourcePins.inValid then s.source else s.source.tail

/-- The list of the responses that are bytes `bs`. -/
def byteResponses (bs : List Byte) : List Response := bs.map .byte

/-- The length of the run of 0x42 bytes that ends the noise (R126). -/
def trailingRun (noise : List Byte) : Nat := (noise.reverse.takeWhile (· == Config.marker0)).length

end Sys2Proof.Machine
end

