-- ==== Sys2Proof/Certificates/Slice0/Obligations.lean ====
section
/-! DEFINITION. The statements for the provers. -/

open Sys2Proof Sys2Proof.Machine

/-! ## Encoding -/

/-- Words written out from the patterns of R75, one for each family of the table, decode to what they stand for. -/
def Obligations.SampleKeysDecodeAsTheTableSays : Prop :=
  decodeTableWord 24 0b1_000_0_00000_0_0_0_00000000 = some .reset ∧
  decodeTableWord 24 0b0_110_0_00000_0_0_0_00000000 = some .illegal ∧
  decodeTableWord 24 0b0_000_0_00000_1_1_1_01000010 = some .idleStart ∧
  decodeTableWord 24 0b0_011_0_00111_1_0_1_11111111 = some .busyWait ∧
  decodeTableWord 24 0b0_001_0_00000_0_1_0_01000010 = some .syncHit0 ∧
  decodeTableWord 24 0b0_001_1_00000_0_1_0_01000010 = some (.syncMiss1 0x42) ∧
  decodeTableWord 24 0b0_010_0_00001_1_1_0_00011100 = some (.lenLo 0x1C) ∧
  decodeTableWord 24 0b0_011_0_11000_0_1_0_01000010 = some (.payByte 24 0x42) ∧
  decodeTableWord 24 0b0_011_0_11001_0_1_0_00000000 = some (.payLast 0) ∧
  decodeTableWord 24 0b0_100_0_00001_0_1_0_10101011 = some (.chkLo 0xAB) ∧
  decodeTableWord 24 0x200000 = none

/-- Decoding the encoding of a well-formed transition gives it back, with every operand. -/
def Obligations.DecodeOfEncodeIsTheTransition : Prop :=
  ∀ i : Instr, i.wf = true → decode (encode i).1 (encode i).2 = some i

/-- R74: some row fits every key, the first that fits is taken, and its operands are ones the row admits. -/
def Obligations.EveryKeySelectsItsFirstRow : Prop :=
  ∀ (k : Key) (e : SerialErr), ∃ (before : List Row) (r : Row) (after : List Row),
    rows = before ++ r :: after ∧ r.fits k = true ∧ (∀ q ∈ before, q.fits k = false) ∧
    decode k e = some (r.operands k e) ∧ (r.operands k e).wf = true ∧ (r.operands k e).mnemonic = r.mnemonic

/-- R76: the table of match and mask pairs chooses the transition the prose chooses. -/
def Obligations.TableChoosesWhatTheProseSays : Prop :=
  ∀ (rst : Bool) (st : BitVec 3) (m : BitVec 1) (idx : BitVec 5) (start inValid inIsErr : Bool) (inData : Byte)
    (e : SerialErr),
    decode (Key.pack rst st m idx start inValid inIsErr inData) e =
      some (transitionFor rst st m idx start inValid inIsErr inData e)

/-- R77: outside SYNC the data byte selects no row, and in LEN, PAY and CHK it is the operand. -/
def Obligations.DataByteSelectsARowOnlyInSync : Prop :=
  ∀ (rst : Bool) (st : BitVec 3) (m : BitVec 1) (idx : BitVec 5) (start inValid inIsErr : Bool) (a b : Byte)
    (e : SerialErr),
    (rst = true ∨ st ≠ St.sync →
      (selectedRow (Key.pack rst st m idx start inValid inIsErr a)).map Row.priority =
        (selectedRow (Key.pack rst st m idx start inValid inIsErr b)).map Row.priority) ∧
    (decode (Key.pack false St.len m 0 start true false b) e = some (.lenHi b)) ∧
    (decode (Key.pack false St.len m 1 start true false b) e = some (.lenLo b)) ∧
    (idx.toNat ≤ 24 → decode (Key.pack false St.pay m idx start true false b) e = some (.payByte idx b)) ∧
    (decode (Key.pack false St.pay m 25 start true false b) e = some (.payLast b)) ∧
    (decode (Key.pack false St.chk m 0 start true false b) e = some (.chkHi b)) ∧
    (decode (Key.pack false St.chk m 1 start true false b) e = some (.chkLo b))

/-- R81: in a state that reads, in_is_err tells a byte from a hard error; without in_valid the other three source pins are
not read, whatever the state. -/
def Obligations.SourcePinsMeanWhatTheirKindSays : Prop :=
  (∀ (s : State) (rest : List SourcePins) (err err' : Bool) (data data' : Byte) (e e' : SerialErr),
    step { s with source := ⟨false, err, data, e⟩ :: rest } =
      step { s with source := ⟨false, err', data', e'⟩ :: rest }) ∧
  (∀ s : State, s.reading → s.hostPins.rst = false → s.sourcePins.inValid = true →
    (s.sourcePins.inIsErr = true → step s = exec (.busySerr s.sourcePins.inErr) s.passEdge) ∧
    (s.sourcePins.inIsErr = false →
      ∃ i, step s = exec i s.passEdge ∧ decode s.edgeKey s.edgeErr = some i ∧ ∀ e, i ≠ .busySerr e))

/-- R71: a 16-bit value is the first byte times 256 plus the second. -/
def Obligations.PairsAreBigEndianAndUnsigned : Prop :=
  ∀ a b : Byte, (pair a b).toNat = a.toNat * 256 + b.toNat ∧ hiByte (pair a b) = a ∧ loByte (pair a b) = b

/-! ## One edge -/

/-- The edge's key decodes to a transition, and the step is that transition on the state whose environment has moved on:
the registers as before, the host's next pins gone, the slot gone when it was accepted or empty. -/
def Obligations.StepRunsTheDecodedTransition : Prop :=
  ∀ (s : State) (i : Instr), decode s.edgeKey s.edgeErr = some i →
    step s = exec i s.passEdge ∧
    s.passEdge = { s with
      host := s.host.tail, hostFree := s.passEdge.hostFree
      source := if s.sourcePins.inValid && !s.accepts then s.source else s.source.tail
      sourceFree := s.passEdge.sourceFree }

/-- The core never stops: in every state, and whatever the environment does, an edge leads to a next state. -/
def Obligations.EveryEdgeLeadsToANextState : Prop :=
  ∀ s : State, ∃ t, step s = .next t

/-- R34: in_ready is 1 exactly in the four busy states, and an edge takes the presented response exactly when in_ready is 1
and rst is 0. -/
def Obligations.ResponsesAreTakenExactlyWhenReady : Prop :=
  (∀ s : State, s.outputs.inReady = true ↔ s.st = 1 ∨ s.st = 2 ∨ s.st = 3 ∨ s.st = 4) ∧
  (∀ (s t : State) (p : SourcePins) (rest : List SourcePins), s.source = p :: rest → p.inValid = true →
    step s = .next t →
    (t.source = if s.outputs.inReady = true ∧ s.hostPins.rst = false then rest else p :: rest) ∧
    (s.st = St.idle → t.source = p :: rest))

/-! ## The sixteen transitions -/

/-- R400: at a reset edge every register takes its reset value, in any state and whatever the other inputs are, and no
response is accepted. -/
def Obligations.ResetEdgeWritesEveryRegister : Prop :=
  (∀ (k : Key) (e : SerialErr), k &&& 0x100000#21 = 0x100000#21 → decode k e = some .reset) ∧
  (∀ s : State, exec .reset s = .next { s with
    st := 0, m := 0, idx := 0, len := 0, acc := 0, buf := [], trl := 0, serr := 0, rv := false, rk := .ok }) ∧
  (∀ s : State, s.hostPins.rst = true →
    ∃ t, step s = .next t ∧ t.source = s.sourceIfHeld ∧ t.outputs = State.reset.outputs ∧ ∀ i, t.bufByte i = 0)

/-- R84: a state no run from reset reaches is recovered to IDLE without a result. A response presented at that edge is
consumed when st is LEN, PAY or CHK and left alone when st is reserved. -/
def Obligations.UnreachableStatesRecoverToIdle : Prop :=
  (∀ (k : Key) (e : SerialErr), decode k e = some .illegal ↔
    k.rst = false ∧ (5 ≤ k.st.toNat ∨ ((k.st = St.len ∨ k.st = St.chk) ∧ 2 ≤ k.idx.toNat) ∨
      (k.st = St.pay ∧ 26 ≤ k.idx.toNat))) ∧
  (∀ s : State, exec .illegal s = .next { s with st := 0, m := 0, idx := 0, rv := false, rk := .ok }) ∧
  (∀ s : State, s.hostPins.rst = false → unreachable s.st s.idx = true →
    ∃ t, step s = .next t ∧ t.outputs.resValid = false ∧
      t.source = if 5 ≤ s.st.toNat then s.sourceIfHeld else s.source.tail)

/-- R100: in IDLE, start = 1 begins a transaction: every working register and the previous result are cleared, no response
is taken at this edge, and the core is ready after it. -/
def Obligations.StartBeginsAFreshTransaction : Prop :=
  (∀ (k : Key) (e : SerialErr), k &&& 0x1E0400#21 = 0x000400#21 → decode k e = some .idleStart) ∧
  (∀ s : State, exec .idleStart s = .next { s with
    st := 1, m := 0, idx := 0, len := 0, acc := 0, buf := [], trl := 0, serr := 0, rv := false, rk := .ok }) ∧
  (∀ s : State, s.idle → s.hostPins.rst = false → s.hostPins.start = true →
    ∃ t, step s = .next t ∧ t.source = s.sourceIfHeld ∧ (∀ i, t.bufByte i = 0) ∧
      t.outputs = { State.reset.outputs with inReady := true, busy := true })

/-- R101: in IDLE without start nothing changes and nothing is taken, a hard error included. -/
def Obligations.IdleEdgeHoldsEverything : Prop :=
  (∀ (k : Key) (e : SerialErr), k &&& 0x1E0400#21 = 0x000000#21 → decode k e = some .idleHold) ∧
  (∀ s : State, exec .idleHold s = .next s) ∧
  (∀ s : State, s.idle → s.hostPins.rst = false → s.hostPins.start = false →
    step s = .next s.passEdge ∧ s.passEdge.outputs = s.outputs ∧ s.passEdge.source = s.sourceIfHeld)

/-- R102: an edge without a response changes no register, and any number of such edges leaves the rest of the stream as it
was. -/
def Obligations.WaitingLosesNothing : Prop :=
  (∀ (k : Key) (e : SerialErr), k &&& 0x100200#21 = 0x000000#21 → k.st ≠ St.idle → unreachable k.st k.idx = false →
    decode k e = some .busyWait) ∧
  (∀ s : State, exec .busyWait s = .next s) ∧
  (∀ (s : State) (hs : List HostPins) (ws : List SourcePins), s.reading → noReset hs → hs.length = ws.length →
    (∀ w ∈ ws, w.inValid = false) →
    Host.Core.run core ws.length { s with host := hs ++ s.host, source := ws ++ s.source } = .next s)

/-- R300: a hard error in any busy state ends the transaction with SERIAL, copies the error value, and shows nothing of the
partly read frame. -/
def Obligations.HardErrorEndsTheTransaction : Prop :=
  (∀ (k : Key) (e : SerialErr), k &&& 0x100300#21 = 0x000300#21 → k.st ≠ St.idle → unreachable k.st k.idx = false →
    decode k e = some (.busySerr e)) ∧
  (∀ (e : SerialErr) (s : State), ∃ t, exec (.busySerr e) s = .next t ∧
    t = { s with serr := e, rk := .serial, rv := true, st := 0, idx := 0, m := 0 } ∧
    t.outputs = { State.reset.outputs with resValid := true, resKind := 0b11#2, resSerialErr := e })

/-- R120: 0x42 with m = 0 makes m 1 and changes nothing else (acc and idx are 0 there), and nothing else makes m 1. -/
def Obligations.FirstMarkerByteIsMatched : Prop :=
  (∀ (k : Key) (e : SerialErr), k &&& 0x1F03FF#21 = 0x020242#21 → decode k e = some .syncHit0) ∧
  (∀ s : State, exec .syncHit0 s = .next { s with m := 1 }) ∧
  (∀ s t : State, s.Inv → s.m = 0 → step s = .next t → t.m = 1 →
    s.st = St.sync ∧ s.hostPins.rst = false ∧ s.sourcePins.inValid = true ∧ s.sourcePins.inIsErr = false ∧
      s.sourcePins.inData = 0x42) ∧
  (∀ s : State, s.Inv → s.Work → s.st = St.sync → s.acc = 0 ∧ s.idx = 0)

/-- R121: any other byte with m = 0 leaves m at 0 and changes nothing. -/
def Obligations.OtherFirstByteIsAMismatch : Prop :=
  (∀ (k : Key) (e : SerialErr), k &&& 0x1F0300#21 = 0x020200#21 → k.inData ≠ 0x42 →
    decode k e = some (.syncMiss0 k.inData)) ∧
  (∀ (b : Byte) (s : State), exec (.syncMiss0 b) s = .next { s with m := 0 }) ∧
  (∀ (b : Byte) (s : State), s.m = 0 → exec (.syncMiss0 b) s = .next s)

/-- R122: a byte other than 0x4D with m = 1 sets m to 0, 0x42 included. -/
def Obligations.OtherSecondByteIsAMismatch : Prop :=
  (∀ (k : Key) (e : SerialErr), k &&& 0x1F0300#21 = 0x030200#21 → k.inData ≠ 0x4D →
    decode k e = some (.syncMiss1 k.inData)) ∧
  (∀ (b : Byte) (s : State), exec (.syncMiss1 b) s = .next { s with m := 0 }) ∧
  (∀ s : State, s.st = St.sync → s.m = 1 → s.hostPins.rst = false → s.sourcePins.inValid = true →
    s.sourcePins.inIsErr = false → s.sourcePins.inData = 0x42 →
    ∃ t, step s = .next t ∧ t.st = St.sync ∧ t.m = 0)

/-- R123: 0x4D with m = 1 locks: LEN, idx 0, m 0, and the accumulator holds the two marker bytes. -/
def Obligations.SecondMarkerByteLocks : Prop :=
  (∀ (k : Key) (e : SerialErr), k &&& 0x1F03FF#21 = 0x03024D#21 → decode k e = some .syncHit1) ∧
  (∀ s : State, ∃ t, exec .syncHit1 s = .next t ∧ t = { s with st := 2, idx := 0, m := 0, acc := 0x008F } ∧
    t.outputs.busy = true ∧ t.outputs.inReady = true)

/-- R140: the high length byte goes to len[15:8] and into the sum, whatever its value. -/
def Obligations.HighLengthByteIsStoredAndSummed : Prop :=
  (∀ (k : Key) (e : SerialErr), k &&& 0x1EFB00#21 = 0x040200#21 → decode k e = some (.lenHi k.inData)) ∧
  (∀ (b : Byte) (s : State), exec (.lenHi b) s = .next { s with
    len := b ++ s.len.extractLsb' 0 8
    acc := BitVec.ofNat 16 ((s.acc.toNat + b.toNat) % 65536)
    idx := 1 })

/-- R141: the low length byte goes to len[7:0] and into the sum; 28 leads to PAY, any other length ends the transaction with
INVALID_LENGTH, which shows it. -/
def Obligations.LowLengthByteIsCheckedAgainst28 : Prop :=
  (∀ (k : Key) (e : SerialErr), k &&& 0x1EFB00#21 = 0x040A00#21 → decode k e = some (.lenLo k.inData)) ∧
  (∀ (b : Byte) (s : State), (hiByte s.len).toNat * 256 + b.toNat = 28 → exec (.lenLo b) s = .next { s with
    len := 28
    acc := BitVec.ofNat 16 ((s.acc.toNat + b.toNat) % 65536)
    st := 3, idx := 0 }) ∧
  (∀ (b : Byte) (s : State), (hiByte s.len).toNat * 256 + b.toNat ≠ 28 → ∃ t, exec (.lenLo b) s = .next t ∧
    t = { s with
      len := hiByte s.len ++ b
      acc := BitVec.ofNat 16 ((s.acc.toNat + b.toNat) % 65536)
      rk := .invalidLength, rv := true, st := 0, idx := 0, m := 0 } ∧
    t.outputs = { State.reset.outputs with resValid := true, resKind := 0b01#2, resLen := hiByte s.len ++ b })

/-- R160: payload byte idx goes to buf[idx] and into the sum, and idx goes up by 1. Every other entry of the buffer and
every other register is unchanged. -/
def Obligations.PayloadByteIsStoredAndSummed : Prop :=
  (∀ (k : Key) (e : SerialErr), k &&& 0x1E0300#21 = 0x060200#21 → k.idx.toNat ≤ 24 →
    decode k e = some (.payByte k.idx k.inData)) ∧
  (∀ (i : BitVec 5) (b : Byte) (s : State), i.toNat ≤ 24 → s.buf.wf →
    ∃ t, exec (.payByte i b) s = .next t ∧
      t = { s with
        buf := t.buf
        acc := BitVec.ofNat 16 ((s.acc.toNat + b.toNat) % 65536)
        idx := BitVec.ofNat 5 (i.toNat + 1) } ∧
      t.bufByte i.toNat = b ∧ ∀ a, a ≠ i.toNat → t.bufByte a = s.bufByte a)

/-- An index from 26 up is no address of the buffer (R50), and the table gives the row none: the meaning
stops (the model's choice, log entry 9). -/
def Obligations.PayloadIndexOutsideTheBufferFaults : Prop :=
  ∀ (i : BitVec 5) (b : Byte) (s : State),
    exec (.payByte i b) s = .fault .bufferAddress ↔ 26 ≤ i.toNat

/-- R161: payload byte 25 goes to buf[25] and into the sum, but into no field, and CHK follows. -/
def Obligations.LastPayloadByteLeadsToTheTrailer : Prop :=
  (∀ (k : Key) (e : SerialErr), k &&& 0x1EFB00#21 = 0x06CA00#21 → decode k e = some (.payLast k.inData)) ∧
  (∀ (b : Byte) (s : State), s.buf.wf →
    ∃ t, exec (.payLast b) s = .next t ∧
      t = { s with
        buf := t.buf
        acc := BitVec.ofNat 16 ((s.acc.toNat + b.toNat) % 65536)
        st := 4, idx := 0 } ∧
      t.bufByte 25 = b ∧ (∀ a, a ≠ 25 → t.bufByte a = s.bufByte a) ∧ parse t.buf = parse s.buf)

/-- R183: the high trailer byte goes to trl[15:8] and not into the sum. -/
def Obligations.HighTrailerByteIsNotSummed : Prop :=
  (∀ (k : Key) (e : SerialErr), k &&& 0x1EFB00#21 = 0x080200#21 → decode k e = some (.chkHi k.inData)) ∧
  (∀ (b : Byte) (s : State), exec (.chkHi b) s = .next { s with trl := b ++ s.trl.extractLsb' 0 8, idx := 1 })

/-- R184: the low trailer byte completes the trailer, which is compared with the sum on all 16 bits: OK shows the twelve
fields, INVALID_DATA the sum and the trailer. Either way the transaction has consumed 32 responses after the noise. (R184 is
silent on m after OK; it stays 0 where it is 0, as in every reachable state: log entry 5.) -/
def Obligations.LowTrailerByteDecidesTheResult : Prop :=
  (∀ (k : Key) (e : SerialErr), k &&& 0x1EFB00#21 = 0x080A00#21 → decode k e = some (.chkLo k.inData)) ∧
  (∀ (b : Byte) (s : State), (hiByte s.trl).toNat * 256 + b.toNat = s.acc.toNat → ∃ t, exec (.chkLo b) s = .next t ∧
    t = { s with trl := s.acc, rk := .ok, rv := true, st := 0, idx := 0, m := t.m } ∧ (s.m = 0 → t.m = 0) ∧
    t.outputs = { State.reset.outputs with resValid := true, resKind := 0b00#2, res := parse s.buf }) ∧
  (∀ (b : Byte) (s : State), (hiByte s.trl).toNat * 256 + b.toNat ≠ s.acc.toNat → ∃ t, exec (.chkLo b) s = .next t ∧
    t = { s with trl := hiByte s.trl ++ b, rk := .invalidData, rv := true, st := 0, idx := 0, m := 0 } ∧
    t.outputs = { State.reset.outputs with
      resValid := true, resKind := 0b10#2, resChkComputed := s.acc, resChkTrailer := hiByte s.trl ++ b }) ∧
  (∀ (rs : List Response) (r : Result) (n : Nat), transaction rs = some (r, n) →
    (∃ f, r = .ok f) ∨ (∃ c v, r = .invalidData c v) →
    ∃ noise : Nat, scanFrom false 0 rs = .done () (noise + 2) ∧ n = noise + 32)

/-! ## State, outputs and results -/

/-- R41: the registers after reset, and what the outputs read until a START changes them. -/
def Obligations.RegistersAfterReset : Prop :=
  State.reset.st = 0 ∧ State.reset.m = 0 ∧ State.reset.idx = 0 ∧ State.reset.len = 0 ∧ State.reset.acc = 0 ∧
  (∀ i, State.reset.bufByte i = 0) ∧ State.reset.trl = 0 ∧ State.reset.serr = 0 ∧ State.reset.rv = false ∧
  State.reset.rk.code = 0b00#2 ∧
  State.reset.outputs = ⟨false, false, false, 0, Measurement.zero, 0, 0, 0, 0⟩ ∧
  (∀ s : State, s.idle → s.rv = false → s.rk = .ok → s.outputs = State.reset.outputs)

/-- R80: the four kinds have the four codes, and no two kinds share one. -/
def Obligations.ResultKindsHaveTheirCodes : Prop :=
  ResKind.ok.code = 0b00#2 ∧ ResKind.invalidLength.code = 0b01#2 ∧ ResKind.invalidData.code = 0b10#2 ∧
  ResKind.serial.code = 0b11#2 ∧ (∀ a b : ResKind, a.code = b.code → a = b) ∧
  (∀ (s : State), s.outputs.resKind = s.rk.code)

/-- R35: each result output reads its register only while a result of its kind is valid, and 0 otherwise. -/
def Obligations.ResultOutputsAreGatedByTheirKind : Prop :=
  ∀ s : State,
    (s.outputs.res = if s.rv = true ∧ s.rk.code = 0b00#2 then parse s.buf else Measurement.zero) ∧
    (s.outputs.resLen = if s.rv = true ∧ s.rk.code = 0b01#2 then s.len else 0) ∧
    (s.outputs.resChkComputed = if s.rv = true ∧ s.rk.code = 0b10#2 then s.acc else 0) ∧
    (s.outputs.resChkTrailer = if s.rv = true ∧ s.rk.code = 0b10#2 then s.trl else 0) ∧
    (s.outputs.resSerialErr = if s.rv = true ∧ s.rk.code = 0b11#2 then s.serr else 0)

/-- R201 and R200: after an OK result each port shows the unsigned big-endian pair at its offset. -/
def Obligations.FieldsSitAtTheirOffsets : Prop :=
  ∀ s : State, s.rv = true → s.rk = .ok →
    let at16 := fun o : Nat => (s.bufByte o).toNat * 256 + (s.bufByte (o + 1)).toNat
    s.outputs.res.std.pm1_0.toNat = at16 0 ∧ s.outputs.res.std.pm2_5.toNat = at16 2 ∧
    s.outputs.res.std.pm10_0.toNat = at16 4 ∧ s.outputs.res.atm.pm1_0.toNat = at16 6 ∧
    s.outputs.res.atm.pm2_5.toNat = at16 8 ∧ s.outputs.res.atm.pm10_0.toNat = at16 10 ∧
    s.outputs.res.abs.pm0_3.toNat = at16 12 ∧ s.outputs.res.abs.pm0_5.toNat = at16 14 ∧
    s.outputs.res.abs.pm1_0.toNat = at16 16 ∧ s.outputs.res.abs.pm2_5.toNat = at16 18 ∧
    s.outputs.res.abs.pm5_0.toNat = at16 20 ∧ s.outputs.res.abs.pm10_0.toNat = at16 22

/-- R85: payload bytes 24 and 25 are stored and summed like any other, and no output shows them. -/
def Obligations.ReservedBytesAreShownNowhere : Prop :=
  (∀ (s : State) (i : Nat) (b : Byte), s.buf.wf → i = 24 ∨ i = 25 →
    { s with buf := s.buf.writeByte i b }.outputs = s.outputs) ∧
  (∀ (b : Byte) (s : State), s.buf.wf →
    (∃ t, exec (.payByte 24 b) s = .next t ∧ t.bufByte 24 = b ∧ t.acc.toNat = (s.acc.toNat + b.toNat) % 65536) ∧
    (∃ t, exec (.payLast b) s = .next t ∧ t.bufByte 25 = b ∧ t.acc.toNat = (s.acc.toNat + b.toNat) % 65536))

/-- R20, the column of writers: in a state that meets the invariant, an edge changes a register only by an event that the
table lists for it. -/
def Obligations.RegistersChangeOnlyByTheirWriters : Prop :=
  ∀ s t : State, s.Inv → step s = .next t →
    let rst := s.hostPins.rst = true
    let start := s.hostPins.rst = false ∧ s.st = St.idle ∧ s.hostPins.start = true
    let acceptIn := fun c : BitVec 3 => s.accepts = true ∧ s.st = c
    (t.st ≠ s.st → rst ∨ start ∨ s.accepts = true) ∧
    (t.m ≠ s.m → rst ∨ start ∨ acceptIn St.sync) ∧
    (t.idx ≠ s.idx → rst ∨ start ∨ acceptIn St.len ∨ acceptIn St.pay ∨ acceptIn St.chk) ∧
    (t.len ≠ s.len → rst ∨ start ∨ acceptIn St.len) ∧
    (t.acc ≠ s.acc → rst ∨ start ∨ (acceptIn St.sync ∧ t.st = St.len) ∨ acceptIn St.len ∨ acceptIn St.pay) ∧
    (t.buf ≠ s.buf → rst ∨ start ∨ acceptIn St.pay) ∧
    (t.trl ≠ s.trl → rst ∨ start ∨ acceptIn St.chk) ∧
    (t.serr ≠ s.serr → rst ∨ start ∨ (s.accepts = true ∧ s.sourcePins.inIsErr = true)) ∧
    (t.rv ≠ s.rv → rst ∨ start ∨ (s.accepts = true ∧ t.st = St.idle)) ∧
    (t.rk ≠ s.rk → rst ∨ start ∨ (s.accepts = true ∧ t.st = St.idle))

/-- R301: a busy core goes idle with exactly one of the four outcomes, each by its cause and with its values, or is
abandoned without a result by reset or recovery (R105). -/
def Obligations.TransactionsEndOnlyByTheirRules : Prop :=
  ∀ s t : State, step s = .next t →
    (s.busy = true → t.busy = false →
      t.st = St.idle ∧
      ((t.rv = false ∧ (s.hostPins.rst = true ∨ unreachable s.st s.idx = true)) ∨
       (t.rv = true ∧ s.accepts = true ∧
        ((t.rk = .serial ∧ s.sourcePins.inIsErr = true ∧ t.serr = s.sourcePins.inErr) ∨
         (s.sourcePins.inIsErr = false ∧ t.rk = .invalidLength ∧ s.st = St.len ∧ s.idx = 1 ∧
          t.len = pair (hiByte s.len) s.sourcePins.inData ∧ t.len ≠ 28) ∨
         (s.sourcePins.inIsErr = false ∧ t.rk = .invalidData ∧ s.st = St.chk ∧ s.idx = 1 ∧ t.acc = s.acc ∧
          t.trl = pair (hiByte s.trl) s.sourcePins.inData ∧ t.trl ≠ t.acc) ∨
         (s.sourcePins.inIsErr = false ∧ t.rk = .ok ∧ s.st = St.chk ∧ s.idx = 1 ∧ t.acc = s.acc ∧
          t.trl = pair (hiByte s.trl) s.sourcePins.inData ∧ t.trl = t.acc))))) ∧
    (s.rv = false → t.rv = true → s.busy = true ∧ t.busy = false)

/-- R103: while the core is busy, start makes no difference to an edge, and without rst a transaction runs on or ends with
a result. -/
def Obligations.StartIsIgnoredWhileBusy : Prop :=
  (∀ (s : State) (rst a b : Bool) (rest : List HostPins), s.busy = true →
    step { s with host := ⟨rst, a⟩ :: rest } = step { s with host := ⟨rst, b⟩ :: rest }) ∧
  (∀ s t : State, s.reading → s.hostPins.rst = false → step s = .next t →
    t.busy = true ∨ (t.outputs.busy = false ∧ t.outputs.resValid = true))

/-! ## Invariants -/

/-- The state after reset meets the invariant of R30. -/
def Obligations.ResetStateMeetsTheInvariant : Prop := State.reset.Inv

/-- R30: every edge keeps the invariant, from every state that meets it and whatever the environment does. -/
def Obligations.EveryEdgeKeepsTheInvariant : Prop :=
  ∀ s t : State, s.Inv → step s = .next t → t.Inv

/-- The state after reset meets the law of the working registers. -/
def Obligations.ResetStateMeetsTheAccumulatorLaw : Prop := State.reset.Work

/-- R180 and R186: every edge keeps the law that ties the accumulator, the length and the trailer to the bytes accepted; in
particular after an OK result the trailer is the sum recomputed from the frame. -/
def Obligations.EveryEdgeKeepsTheAccumulatorLaw : Prop :=
  ∀ s t : State, s.Inv → s.Work → step s = .next t → t.Work

/-- R182: at the comparison the sum lies in 0x00AB to 0x1A91, so adding without the reduction gives the same value, and a
trailer outside that range never matches. -/
def Obligations.SumAtTheComparisonIsInRange : Prop :=
  ∀ s : State, s.Inv → s.Work → s.st = St.chk →
    s.len = 28 ∧ s.acc.toNat = 0xAB + s.buf.sum 26 ∧ 0x00AB ≤ s.acc.toNat ∧ s.acc.toNat ≤ 0x1A91 ∧
    ∀ b : Byte, (pair (hiByte s.trl) b).toNat < 0x00AB ∨ 0x1A91 < (pair (hiByte s.trl) b).toNat →
      ∃ t, exec (.chkLo b) s = .next t ∧ t.rv = true ∧ t.rk = .invalidData

/-! ## Runs -/

/-- R204 and R407: over any number of edges without rst and start an idle core keeps its result, its buffer and the stream,
whatever the byte source presents; START and reset end the result. -/
def Obligations.ResultIsHeldUntilStartOrReset : Prop :=
  (∀ (s : State) (hs : List HostPins), s.idle → noCommand hs →
    ∃ t, Host.Core.run core hs.length { s with host := hs ++ s.host } = .next t ∧
      t.outputs = s.outputs ∧ t.buf = s.buf ∧ t.host = s.host ∧ responses t.source = responses s.source) ∧
  (∀ s : State, s.idle → s.hostPins.rst = true ∨ s.hostPins.start = true →
    ∃ t, step s = .next t ∧ t.outputs.resValid = false ∧ t.outputs.res = Measurement.zero)

/-- R223: two idle cores in the same environment are in the same state after a START, whatever each did before, and so is
every run from there. -/
def Obligations.NothingIsRememberedAcrossTransactions : Prop :=
  ∀ (s t : State) (n : Nat), s.idle → t.idle → s.host = t.host → s.source = t.source → s.hostFree = t.hostFree →
    s.sourceFree = t.sourceFree → s.hostPins.rst = false → s.hostPins.start = true →
    step s = step t ∧ Host.Core.run core (n + 1) s = Host.Core.run core (n + 1) t

/-- R125: one accepted byte in SYNC moves the match position as stated, and a 0x4D locks the scan exactly when it directly
follows a run of 0x42 of odd length that began with m = 0. -/
def Obligations.ScanLocksAfterOddRunsOnly : Prop :=
  (∀ s : State, s.st = St.sync → s.accepts = true → s.sourcePins.inIsErr = false →
    ∃ t, step s = .next t ∧
      (t.st = St.len ↔ s.m = 1 ∧ s.sourcePins.inData = 0x4D) ∧
      (t.m = 1 ↔ s.sourcePins.inData = 0x42 ∧ s.m = 0) ∧
      (t.st ≠ St.len → t.st = St.sync)) ∧
  (∀ (s : State) (k : Nat) (hs : List HostPins) (rest : List SourcePins), s.st = St.sync → s.m = 0 → noReset hs →
    hs.length = k + 1 →
    ∃ t, Host.Core.run core (k + 1)
        { s with host := hs ++ s.host, source := List.replicate k (byteSlot 0x42) ++ byteSlot 0x4D :: rest } = .next t ∧
      t.source = rest ∧ t.m = 0 ∧ t.st = (if k % 2 = 1 then St.len else St.sync))

/-- R127: a 42 4D pair met with m = 0 locks the scan, wherever in the stream it lies and whatever follows. -/
def Obligations.AnyMarkerPairLocksTheScan : Prop :=
  ∀ (s : State) (h h' : HostPins) (rest : List SourcePins), s.st = St.sync → s.m = 0 → noReset [h, h'] →
    Host.Core.run core 2 { s with host := h :: h' :: s.host, source := byteSlot 0x42 :: byteSlot 0x4D :: rest } =
      .next { s with source := rest, st := 2, idx := 0, m := 0, acc := 0x008F }

/-- R220 and R221: a START and enough edges without reset give exactly the result of the transaction function, once, at the
edge that consumes its last response; the core is busy without a result until then. -/
def Obligations.EdgesComputeTheTransactionFunction : Prop :=
  ∀ (s : State) (hs : List HostPins) (r : Result) (n : Nat), s.idle → noReset hs → s.source.length ≤ hs.length →
    transaction (responses s.source) = some (r, n) →
    ∃ (k : Nat) (t : State), k ≤ s.source.length + 1 ∧
      Host.Core.run core k { s with host := ⟨false, true⟩ :: hs } = .next t ∧
      t.idle ∧ t.result = some r ∧ responses t.source = (responses s.source).drop n ∧
      ∀ j, 0 < j → j < k → ∃ u, Host.Core.run core j { s with host := ⟨false, true⟩ :: hs } = .next u ∧
        u.outputs.busy = true ∧ u.outputs.resValid = false

/-- R221: an OK or INVALID_DATA result consumes 30 responses after the lock, INVALID_LENGTH 2, SERIAL those up to its first
hard error; no response after them matters, and a good frame at the start of the stream takes 32. -/
def Obligations.TransactionsConsumeExactlyWhatTheyRead : Prop :=
  (∀ (rs more : List Response) (r : Result) (n : Nat), transaction rs = some (r, n) →
    n ≤ rs.length ∧ transaction (rs ++ more) = some (r, n) ∧
    match r with
    | .ok _ => ∃ j, 2 ≤ j ∧ scanFrom false 0 rs = .done () j ∧ n = j + 30
    | .invalidData _ _ => ∃ j, 2 ≤ j ∧ scanFrom false 0 rs = .done () j ∧ n = j + 30
    | .invalidLength _ => ∃ j, 2 ≤ j ∧ scanFrom false 0 rs = .done () j ∧ n = j + 2
    | .serial e => ∃ (bs : List Byte) (rest : List Response), rs = byteResponses bs ++ .err e :: rest ∧ n = bs.length + 1) ∧
  (∀ (p : List Byte) (rest : List Response), p.length = 26 →
    transaction (byteResponses (frameBytes p) ++ rest) = some (.ok (parsePayload p), 32))

/-- R222: while the listed responses hold no end of the transaction, the core stays busy without a result, at every edge up
to the one that uses up the list. -/
def Obligations.TransactionWithoutAnEndStaysBusy : Prop :=
  ∀ (s : State) (hs : List HostPins) (k : Nat), s.idle → noReset hs → s.source.length ≤ hs.length →
    transaction (responses s.source) = none → 0 < k → k ≤ s.sourceIfHeld.length + 1 →
    ∃ t, Host.Core.run core k { s with host := ⟨false, true⟩ :: hs } = .next t ∧
      t.outputs.busy = true ∧ t.outputs.resValid = false

/-- R126: a well-formed frame after noise is the one decoded exactly when the noise holds no lock and ends in a run of 0x42
of even length; noise without 0x42 is always skipped. -/
def Obligations.FrameAfterNoiseIsDecodedExactlyWhenUnmasked : Prop :=
  ∀ (noise p : List Byte) (rest : List Response), p.length = 26 →
    (transaction (byteResponses noise ++ byteResponses (frameBytes p) ++ rest) =
        some (.ok (parsePayload p), noise.length + 32) ↔
      scanFrom false 0 (byteResponses noise) = .short ∧ trailingRun noise % 2 = 0) ∧
    (0x42 ∉ noise →
      transaction (byteResponses noise ++ byteResponses (frameBytes p) ++ rest) =
        some (.ok (parsePayload p), noise.length + 32))

/-- Every OK result comes from a well-formed frame that the stream holds, and shows that frame's fields. -/
def Obligations.OkResultsComeFromWellFormedFrames : Prop :=
  ∀ (rs : List Response) (f : Measurement) (n : Nat), transaction rs = some (.ok f, n) →
    ∃ (noise p : List Byte) (rest : List Response), p.length = 26 ∧
      rs = byteResponses noise ++ byteResponses (frameBytes p) ++ rest ∧
      f = parsePayload p ∧ n = noise.length + 32

/-- R224: whatever the core did before, a START on a stream of harmless noise and a well-formed frame ends OK with that
frame's fields and leaves the rest of the stream. -/
def Obligations.RetryOnAFreshFrameSucceeds : Prop :=
  ∀ (s : State) (hs : List HostPins) (noise p : List Byte) (rest : List Response), s.idle → noReset hs →
    s.source.length ≤ hs.length → p.length = 26 →
    responses s.source = byteResponses noise ++ byteResponses (frameBytes p) ++ rest →
    scanFrom false 0 (byteResponses noise) = .short → trailingRun noise % 2 = 0 →
    ∃ (k : Nat) (t : State), Host.Core.run core k { s with host := ⟨false, true⟩ :: hs } = .next t ∧
      t.result = some (.ok (parsePayload p)) ∧ responses t.source = rest
end

