-- ==== Sys2Proof/Laws/Decode.lean ====
section
/-! SUPPORT. The decode key and its fields: packing and reading are inverse, masking works field by field, and so a pattern of
the table is a condition on fields. -/

namespace Sys2Proof

/-! The named codes and constants are literals: simp works with the literals. -/

@[simp] theorem St.idle_eq : St.idle = 0#3 := rfl
@[simp] theorem St.sync_eq : St.sync = 1#3 := rfl
@[simp] theorem St.len_eq : St.len = 2#3 := rfl
@[simp] theorem St.pay_eq : St.pay = 3#3 := rfl
@[simp] theorem St.chk_eq : St.chk = 4#3 := rfl
@[simp] theorem Config.marker0_eq : Config.marker0 = 0x42#8 := rfl
@[simp] theorem Config.marker1_eq : Config.marker1 = 0x4D#8 := rfl
@[simp] theorem Config.lenExpected_eq : Config.lenExpected = 28#16 := rfl

section
variable (rst : Bool) (st : BitVec 3) (m : BitVec 1) (idx : BitVec 5) (start inValid inIsErr : Bool) (inData : Byte)

/-- The bits of a packed key (R73). -/
theorem Key.getLsbD_pack (i : Nat) : (Key.pack rst st m idx start inValid inIsErr inData).getLsbD i =
    if i < 8 then inData.getLsbD i
    else if i - 8 < 1 then (BitVec.ofBool inIsErr).getLsbD (i - 8)
    else if i - 8 - 1 < 1 then (BitVec.ofBool inValid).getLsbD (i - 8 - 1)
    else if i - 8 - 1 - 1 < 1 then (BitVec.ofBool start).getLsbD (i - 8 - 1 - 1)
    else if i - 8 - 1 - 1 - 1 < 5 then idx.getLsbD (i - 8 - 1 - 1 - 1)
    else if i - 8 - 1 - 1 - 1 - 5 < 1 then m.getLsbD (i - 8 - 1 - 1 - 1 - 5)
    else if i - 8 - 1 - 1 - 1 - 5 - 1 < 3 then st.getLsbD (i - 8 - 1 - 1 - 1 - 5 - 1)
    else (BitVec.ofBool rst).getLsbD (i - 8 - 1 - 1 - 1 - 5 - 1 - 3) := by
  show BitVec.getLsbD (w := 1 + 3 + 1 + 5 + 1 + 1 + 1 + 8) (BitVec.ofBool rst ++ st ++ m ++ idx ++ BitVec.ofBool start ++
    BitVec.ofBool inValid ++ BitVec.ofBool inIsErr ++ inData) i = _
  simp only [BitVec.getLsbD_append]

@[simp] theorem Key.rst_pack : (Key.pack rst st m idx start inValid inIsErr inData).rst = rst := by
  rw [Key.rst, Key.getLsbD_pack]; simp

@[simp] theorem Key.start_pack : (Key.pack rst st m idx start inValid inIsErr inData).start = start := by
  rw [Key.start, Key.getLsbD_pack]; simp

@[simp] theorem Key.inValid_pack : (Key.pack rst st m idx start inValid inIsErr inData).inValid = inValid := by
  rw [Key.inValid, Key.getLsbD_pack]; simp

@[simp] theorem Key.inIsErr_pack : (Key.pack rst st m idx start inValid inIsErr inData).inIsErr = inIsErr := by
  rw [Key.inIsErr, Key.getLsbD_pack]; simp

@[simp] theorem Key.st_pack : (Key.pack rst st m idx start inValid inIsErr inData).st = st := by
  apply BitVec.eq_of_getLsbD_eq
  intro i hi
  rw [Key.st, BitVec.getLsbD_extractLsb', Key.getLsbD_pack]
  interval_cases i <;> simp

@[simp] theorem Key.m_pack : (Key.pack rst st m idx start inValid inIsErr inData).m = m := by
  apply BitVec.eq_of_getLsbD_eq
  intro i hi
  rw [Key.m, BitVec.getLsbD_extractLsb', Key.getLsbD_pack]
  interval_cases i
  simp

@[simp] theorem Key.idx_pack : (Key.pack rst st m idx start inValid inIsErr inData).idx = idx := by
  apply BitVec.eq_of_getLsbD_eq
  intro i hi
  rw [Key.idx, BitVec.getLsbD_extractLsb', Key.getLsbD_pack]
  interval_cases i <;> simp

@[simp] theorem Key.inData_pack : (Key.pack rst st m idx start inValid inIsErr inData).inData = inData := by
  apply BitVec.eq_of_getLsbD_eq
  intro i hi
  rw [Key.inData, BitVec.getLsbD_extractLsb', Key.getLsbD_pack]
  interval_cases i <;> simp

end

/-- A key is packed from its fields. -/
theorem Key.pack_fields (k : Key) :
    Key.pack k.rst k.st k.m k.idx k.start k.inValid k.inIsErr k.inData = k := by
  apply BitVec.eq_of_getLsbD_eq
  intro i hi
  rw [Key.getLsbD_pack]
  interval_cases i <;>
    simp [Key.rst, Key.st, Key.m, Key.idx, Key.start, Key.inValid, Key.inIsErr, Key.inData]

/-- Two packed keys are equal exactly when their fields are. -/
theorem Key.pack_inj (r r' : Bool) (s s' : BitVec 3) (m m' : BitVec 1) (i i' : BitVec 5) (a a' v v' e e' : Bool)
    (d d' : Byte) :
    Key.pack r s m i a v e d = Key.pack r' s' m' i' a' v' e' d' ↔
      r = r' ∧ s = s' ∧ m = m' ∧ i = i' ∧ a = a' ∧ v = v' ∧ e = e' ∧ d = d' := by
  constructor
  · intro h
    refine ⟨?_, ?_, ?_, ?_, ?_, ?_, ?_, ?_⟩
    · simpa using congrArg Key.rst h
    · simpa using congrArg Key.st h
    · simpa using congrArg Key.m h
    · simpa using congrArg Key.idx h
    · simpa using congrArg Key.start h
    · simpa using congrArg Key.inValid h
    · simpa using congrArg Key.inIsErr h
    · simpa using congrArg Key.inData h
  · rintro ⟨rfl, rfl, rfl, rfl, rfl, rfl, rfl, rfl⟩
    rfl

/-- Masking a packed key masks each field. -/
theorem Key.pack_and (r r' : Bool) (s s' : BitVec 3) (m m' : BitVec 1) (i i' : BitVec 5) (a a' v v' e e' : Bool)
    (d d' : Byte) :
    Key.pack r s m i a v e d &&& Key.pack r' s' m' i' a' v' e' d' =
      Key.pack (r && r') (s &&& s') (m &&& m') (i &&& i') (a && a') (v && v') (e && e') (d &&& d') := by
  apply BitVec.eq_of_getLsbD_eq
  intro j hj
  simp only [BitVec.getLsbD_and, Key.getLsbD_pack, BitVec.getLsbD_ofBool]
  split_ifs <;> simp [Bool.and_left_comm, Bool.and_assoc]

/-- A pattern whose match and mask are packed from fields is a condition on the fields of the key. -/
theorem Pattern.fits_pack (r r' r'' : Bool) (s s' s'' : BitVec 3) (m m' m'' : BitVec 1) (i i' i'' : BitVec 5)
    (a a' a'' v v' v'' e e' e'' : Bool) (d d' d'' : Byte) :
    Pattern.fits ⟨Key.pack r'' s'' m'' i'' a'' v'' e'' d'', Key.pack r' s' m' i' a' v' e' d'⟩ (Key.pack r s m i a v e d) =
      ((r && r') == r'' && s &&& s' == s'' && m &&& m' == m'' && i &&& i' == i'' && (a && a') == a'' && (v && v') == v'' &&
        (e && e') == e'' && d &&& d' == d'') := by
  rw [Pattern.fits, Key.pack_and, Bool.eq_iff_iff, beq_iff_eq, Key.pack_inj]
  simp [and_assoc]

end Sys2Proof
end

