-- ==== Sys2Proof/Laws/Memory.lean ====
section
/-! SUPPORT. The laws of the payload buffer: a read after a write, the frame of a write, and that every operation keeps the
canonical form. -/

namespace Sys2Proof.Machine

@[simp] theorem Memory.readByte_nil (x : Nat) : Memory.readByte [] x = Memory.unlisted := rfl

/-- The empty buffer is canonical. -/
theorem Memory.wf_nil : Memory.wf [] := by simp [Memory.wf]

/-- The tail of a canonical buffer is canonical, and the head is below every entry of it. -/
theorem Memory.wf_cons (c : Host.Cell) (mem : Memory) :
    Memory.wf (c :: mem) ↔ (c.1 < Config.payloadLen ∧ c.2 ≠ Memory.unlisted) ∧ (∀ d ∈ mem, c.1 < d.1) ∧ Memory.wf mem := by
  simp only [Memory.wf, List.pairwise_cons, List.forall_mem_cons]
  tauto

/-- An address below every entry is not listed. -/
theorem Memory.readByte_below (mem : Memory) (x : Nat) (h : ∀ d ∈ mem, x < d.1) : mem.readByte x = Memory.unlisted := by
  induction mem with
  | nil => rfl
  | cons c mem ih =>
    have hc := h c (by simp)
    simp only [Memory.readByte, if_neg (Nat.ne_of_lt hc)]
    exact ih fun d hd => h d (by simp [hd])

/-- A read after a write: the written byte at its address, the old one elsewhere. -/
theorem Memory.readByte_writeByte (mem : Memory) (h : mem.wf) (x y : Nat) (b : Byte) :
    (mem.writeByte x b).readByte y = if y = x then b else mem.readByte y := by
  induction mem with
  | nil =>
    unfold Memory.writeByte
    split_ifs <;> simp_all [Memory.readByte]
  | cons c mem ih =>
    obtain ⟨a, v⟩ := c
    obtain ⟨-, hlow, hmem⟩ := (Memory.wf_cons _ _).1 h
    have below := Memory.readByte_below mem a hlow
    have belowLt : ∀ z, z < a → Memory.readByte mem z = Memory.unlisted := fun z hz =>
      Memory.readByte_below mem z fun d hd => Nat.lt_trans hz (hlow d hd)
    rcases Nat.lt_trichotomy x a with hxa | rfl | hxa
    · by_cases hb : b = Memory.unlisted <;> by_cases hy : y = x <;>
        simp_all [Memory.writeByte, Memory.readByte, Nat.ne_of_lt hxa]
    · by_cases hb : b = Memory.unlisted <;> by_cases hy : y = x <;> simp_all [Memory.writeByte, Memory.readByte]
    · have hn : ¬x < a := Nat.lt_asymm hxa
      have hne : x ≠ a := Nat.ne_of_gt hxa
      simp only [Memory.writeByte, if_neg hn, if_neg hne, Memory.readByte, ih hmem]
      by_cases hy : y = x
      · simp [hy, hne]
      · simp [hy]

/-- The addresses listed after a write. -/
theorem Memory.mem_writeByte (mem : Memory) (x : Nat) (b : Byte) (d : Host.Cell) (hd : d ∈ mem.writeByte x b) :
    d ∈ mem ∨ (d = (x, b) ∧ b ≠ Memory.unlisted) := by
  induction mem with
  | nil =>
    unfold Memory.writeByte at hd
    split_ifs at hd <;> simp_all
  | cons c mem ih =>
    unfold Memory.writeByte at hd
    split_ifs at hd <;> simp_all <;> tauto

/-- A write inside the buffer keeps the canonical form. -/
theorem Memory.wf_writeByte (mem : Memory) (h : mem.wf) (x : Nat) (b : Byte) (hx : x < Config.payloadLen) :
    (mem.writeByte x b).wf := by
  induction mem with
  | nil =>
    unfold Memory.writeByte
    split_ifs with hb
    · exact Memory.wf_nil
    · exact (Memory.wf_cons _ _).2 ⟨⟨hx, hb⟩, by simp, Memory.wf_nil⟩
  | cons c mem ih =>
    obtain ⟨a, v⟩ := c
    obtain ⟨hav, hlow, hmem⟩ := (Memory.wf_cons _ _).1 h
    unfold Memory.writeByte
    split_ifs with h1 h2 h3 h4
    · exact h
    · refine (Memory.wf_cons _ _).2 ⟨⟨hx, h2⟩, ?_, h⟩
      intro d hd
      rcases List.mem_cons.1 hd with rfl | hd
      · exact h1
      · exact Nat.lt_trans h1 (hlow d hd)
    · exact hmem
    · refine (Memory.wf_cons _ _).2 ⟨⟨hx, h4⟩, ?_, hmem⟩
      intro d hd
      exact h3 ▸ hlow d hd
    · refine (Memory.wf_cons _ _).2 ⟨hav, ?_, ih hmem⟩
      intro d hd
      rcases Memory.mem_writeByte _ _ _ _ hd with hd | ⟨rfl, -⟩
      · exact hlow d hd
      · show a < x
        omega

/-- Two canonical buffers that read alike are equal. -/
theorem Memory.ext_of_readByte (p q : Memory) (hp : p.wf) (hq : q.wf) (h : ∀ x, p.readByte x = q.readByte x) : p = q := by
  induction p generalizing q with
  | nil =>
    cases q with
    | nil => rfl
    | cons c q =>
      have := h c.1
      have hc := ((Memory.wf_cons _ _).1 hq).1.2
      simp [Memory.readByte] at this
      exact absurd this.symm hc
  | cons c p ih =>
    obtain ⟨hc, hlow, hp'⟩ := (Memory.wf_cons _ _).1 hp
    cases q with
    | nil =>
      have := h c.1
      simp [Memory.readByte] at this
      exact absurd this hc.2
    | cons d q =>
      obtain ⟨hd, hlow', hq'⟩ := (Memory.wf_cons _ _).1 hq
      have key : c.1 = d.1 := by
        rcases Nat.lt_trichotomy c.1 d.1 with hlt | heq | hlt
        · have := h c.1
          rw [Memory.readByte_below (d :: q) c.1 (by simpa using ⟨hlt, fun a b hab => Nat.lt_trans hlt (hlow' _ hab)⟩)] at this
          simp [Memory.readByte] at this
          exact absurd this hc.2
        · exact heq
        · have := h d.1
          rw [Memory.readByte_below (c :: p) d.1 (by simpa using ⟨hlt, fun a b hab => Nat.lt_trans hlt (hlow _ hab)⟩)] at this
          simp [Memory.readByte] at this
          exact absurd this.symm hd.2
      have hv : c.2 = d.2 := by
        have := h c.1
        simpa [Memory.readByte, key] using this
      obtain rfl : c = d := Prod.ext key hv
      refine congrArg _ (ih q hp' hq' fun x => ?_)
      have hx := h x
      simp only [Memory.readByte] at hx
      by_cases hxc : x = c.1
      · rw [hxc, Memory.readByte_below p c.1 hlow, Memory.readByte_below q c.1 hlow']
      · simpa [hxc] using hx

/-- A store to the buffer succeeds exactly inside it. -/
theorem State.storeBuf_inside (s : State) (i : Nat) (b : Byte) (h : i < Config.payloadLen) :
    s.storeBuf i b = some { s with buf := s.buf.writeByte i b } := if_pos h

/-- A store outside the buffer does not exist. -/
theorem State.storeBuf_outside (s : State) (i : Nat) (b : Byte) (h : Config.payloadLen ≤ i) : s.storeBuf i b = none :=
  if_neg (Nat.not_lt.2 h)

/-- Everything a store can do: one byte of the buffer, nothing else. -/
theorem State.storeBuf_spec (s t : State) (i : Nat) (b : Byte) (hs : s.buf.wf) (h : s.storeBuf i b = some t) :
    t = { s with buf := t.buf } ∧ t.buf.wf ∧ t.bufByte i = b ∧ ∀ a, a ≠ i → t.bufByte a = s.bufByte a := by
  unfold State.storeBuf at h
  split at h
  · next hi =>
    obtain rfl := Option.some.inj h
    refine ⟨rfl, Memory.wf_writeByte _ hs _ _ hi, ?_, fun a ha => ?_⟩
    · simp [State.bufByte, Memory.readByte_writeByte _ hs]
    · simp [State.bufByte, Memory.readByte_writeByte _ hs, ha]
  · cases h

end Sys2Proof.Machine
end

