-- ==== Sys2Proof/Laws/Operands.lean ====
section
/-! SUPPORT. What operand assembly and the status functions compute, in exact arithmetic. -/

namespace Sys2Proof.Machine

theorem zext16_toNat (b : Byte) : (zext16 b).toNat = b.toNat := by
  simp [zext16]; omega

/-- Assembly is concatenation. -/
theorem pair_eq_append (a b : Byte) : pair a b = a ++ b := by
  apply BitVec.eq_of_toNat_eq
  simp only [pair, zext16, BitVec.toNat_or, BitVec.toNat_shiftLeft, BitVec.toNat_setWidth, BitVec.toNat_append]
  have ha := a.isLt
  have hb := b.isLt
  rw [Nat.mod_eq_of_lt (by omega : a.toNat < 2 ^ 16), Nat.mod_eq_of_lt (by omega : b.toNat < 2 ^ 16),
    Nat.mod_eq_of_lt (by rw [Nat.shiftLeft_eq]; omega)]

theorem hiByte_append (a b : Byte) : hiByte (a ++ b) = a := by
  unfold hiByte
  apply BitVec.eq_of_toNat_eq
  simp only [BitVec.extractLsb'_toNat, BitVec.toNat_append]
  have ha := a.isLt
  have hb := b.isLt
  rw [← Nat.shiftLeft_add_eq_or_of_lt hb, Nat.shiftLeft_eq, Nat.shiftRight_eq_div_pow]
  omega

theorem loByte_append (a b : Byte) : loByte (a ++ b) = b := by
  unfold loByte
  apply BitVec.eq_of_toNat_eq
  simp only [BitVec.extractLsb'_toNat, BitVec.toNat_append]
  have ha := a.isLt
  have hb := b.isLt
  rw [← Nat.shiftLeft_add_eq_or_of_lt hb, Nat.shiftLeft_eq, Nat.shiftRight_eq_div_pow]
  omega

theorem hiByte_toNat (v : Half) : (hiByte v).toNat = v.toNat / 256 := by
  have := v.isLt
  simp only [hiByte, BitVec.extractLsb'_toNat, Nat.shiftRight_eq_div_pow]
  omega

theorem loByte_toNat (v : Half) : (loByte v).toNat = v.toNat % 256 := by
  simp only [loByte, BitVec.extractLsb'_toNat, Nat.shiftRight_eq_div_pow]
  omega

/-- `acc + zext_16(b)` is addition modulo 65536 (R180). -/
theorem addByte_toNat (acc : Half) (b : Byte) : (addByte acc b).toNat = (acc.toNat + b.toNat) % 65536 := by
  simp [addByte, BitVec.toNat_add, zext16_toNat]

/-- The sum at the lock (R123). -/
theorem markerSum_eq : markerSum = 0x008F#16 := by decide

/-- `busy` is a property of st alone (R21). -/
theorem State.busy_congr (s t : State) (h : s.st = t.st) : s.busy = t.busy := by
  simp [State.busy, h]

theorem State.busy_iff (s : State) :
    s.busy = true ↔ s.st = St.sync ∨ s.st = St.len ∨ s.st = St.pay ∨ s.st = St.chk := by
  simp [State.busy, or_assoc]

/-- An idle core is not busy. -/
theorem State.busy_of_idle (s : State) (h : s.st = St.idle) : s.busy = false := by
  unfold State.busy; rw [h]; rfl

end Sys2Proof.Machine
end

