-- ==== Sys2Proof/Laws/Exec.lean ====
section
/-! SUPPORT. What every meaning can do: which ones stop, what they leave alone, and the arithmetic they share. -/

namespace Sys2Proof.Machine

/-- `acc + zext_16(b)` as a number reduced modulo 65536 (R180). -/
theorem addByte_eq_ofNat (acc : Half) (b : Byte) : addByte acc b = BitVec.ofNat 16 ((acc.toNat + b.toNat) % 65536) := by
  apply BitVec.eq_of_toNat_eq
  rw [addByte_toNat]
  simp

/-- The value of a pair (R71), as concatenation gives it. -/
theorem pair_toNat (a b : Byte) : (pair a b).toNat = a.toNat * 256 + b.toNat := by
  rw [pair_eq_append, BitVec.toNat_append, ← Nat.shiftLeft_add_eq_or_of_lt b.isLt, Nat.shiftLeft_eq]

/-- The value of a register whose low byte is replaced. -/
theorem setLo_toNat (v : Half) (b : Byte) : (setLo v b).toNat = (hiByte v).toNat * 256 + b.toNat := pair_toNat _ _

/-- LEN.LO answers a next state, one of two (R141). -/
theorem execLenLo_cases (b : Byte) (s : State) :
    (setLo s.len b = 28#16 ∧ execLenLo b s = .next { s.accumulate b with len := setLo s.len b, st := St.pay, idx := 0 }) ∨
    (setLo s.len b ≠ 28#16 ∧ execLenLo b s = .next { s.accumulate b with len := setLo s.len b }.raiseInvalidLength) := by
  by_cases h : setLo s.len b = 28#16
  · exact .inl ⟨h, by simp [execLenLo, lengthOk, h]⟩
  · exact .inr ⟨h, by simp [execLenLo, lengthOk, h]⟩

/-- CHK.LO answers a next state, one of two (R184). -/
theorem execChkLo_cases (b : Byte) (s : State) :
    (setLo s.trl b = s.acc ∧ execChkLo b s = .next { s with trl := setLo s.trl b }.completeOk) ∨
    (setLo s.trl b ≠ s.acc ∧ execChkLo b s = .next { s with trl := setLo s.trl b }.raiseInvalidData) := by
  by_cases h : setLo s.trl b = s.acc
  · exact .inl ⟨h, by simp [execChkLo, checksumOk, h]⟩
  · exact .inr ⟨h, by simp [execChkLo, checksumOk, h]⟩

/-- No meaning touches the environment. -/
theorem exec_environment (i : Instr) (s t : State) (h : exec i s = .next t) :
    t.host = s.host ∧ t.source = s.source ∧ t.hostFree = s.hostFree ∧ t.sourceFree = s.sourceFree := by
  cases i <;> simp only [exec, execReset, execIllegal, execIdleStart, execIdleHold, execBusySerr, execBusyWait, execSyncHit0,
    execSyncMiss0, execSyncHit1, execSyncMiss1, execLenHi, execLenLo, execPayLast, execPayByte, execChkHi, execChkLo,
    State.storeBuf] at h
  all_goals
    try split_ifs at h
  all_goals
    obtain rfl := Host.Outcome.next.inj h
    exact ⟨rfl, rfl, rfl, rfl⟩

/-- A well-formed instruction does not stop the machine, whatever the state. -/
theorem exec_next_of_wf (i : Instr) (h : i.wf = true) (s : State) : ∃ t, exec i s = .next t := by
  cases i <;> simp only [exec, execReset, execIllegal, execIdleStart, execIdleHold, execBusySerr, execBusyWait, execSyncHit0,
    execSyncMiss0, execSyncHit1, execSyncMiss1, execLenHi, execPayLast, execPayByte, execChkHi]
  case lenLo b => rcases execLenLo_cases b s with ⟨-, h⟩ | ⟨-, h⟩ <;> exact ⟨_, h⟩
  case chkLo b => rcases execChkLo_cases b s with ⟨-, h⟩ | ⟨-, h⟩ <;> exact ⟨_, h⟩
  case payByte i b =>
    have hi : i.toNat ≤ 24 := by simpa [Instr.wf] using h
    rw [State.storeBuf_inside _ _ _ (by show i.toNat < 26; omega)]
    exact ⟨_, rfl⟩
  all_goals exact ⟨_, rfl⟩

/-- The outputs are functions of the registers (R33). -/
theorem State.outputs_congr (s t : State) (h1 : s.st = t.st) (h2 : s.rv = t.rv) (h3 : s.rk = t.rk) (h4 : s.buf = t.buf)
    (h5 : s.len = t.len) (h6 : s.acc = t.acc) (h7 : s.trl = t.trl) (h8 : s.serr = t.serr) : s.outputs = t.outputs := by
  simp [State.outputs, State.inReady, State.busy, State.shows, *]

end Sys2Proof.Machine
end

