-- ==== Sys2Proof/Laws/State.lean ====
section
/-! SUPPORT. One lemma per field for each named update of State, so that no proof unfolds a record update. -/

namespace Sys2Proof.Machine

variable (s : State)

/-! `accumulate` -/

@[simp] theorem State.accumulate_st (b : Byte) : (s.accumulate b).st = s.st := rfl
@[simp] theorem State.accumulate_m (b : Byte) : (s.accumulate b).m = s.m := rfl
@[simp] theorem State.accumulate_idx (b : Byte) : (s.accumulate b).idx = s.idx := rfl
@[simp] theorem State.accumulate_len (b : Byte) : (s.accumulate b).len = s.len := rfl
@[simp] theorem State.accumulate_acc (b : Byte) : (s.accumulate b).acc = addByte s.acc b := rfl
@[simp] theorem State.accumulate_buf (b : Byte) : (s.accumulate b).buf = s.buf := rfl
@[simp] theorem State.accumulate_trl (b : Byte) : (s.accumulate b).trl = s.trl := rfl
@[simp] theorem State.accumulate_serr (b : Byte) : (s.accumulate b).serr = s.serr := rfl
@[simp] theorem State.accumulate_rv (b : Byte) : (s.accumulate b).rv = s.rv := rfl
@[simp] theorem State.accumulate_rk (b : Byte) : (s.accumulate b).rk = s.rk := rfl
@[simp] theorem State.accumulate_host (b : Byte) : (s.accumulate b).host = s.host := rfl
@[simp] theorem State.accumulate_source (b : Byte) : (s.accumulate b).source = s.source := rfl
@[simp] theorem State.accumulate_hostFree (b : Byte) : (s.accumulate b).hostFree = s.hostFree := rfl
@[simp] theorem State.accumulate_sourceFree (b : Byte) : (s.accumulate b).sourceFree = s.sourceFree := rfl

/-! `endTransaction` -/

@[simp] theorem State.endTransaction_st (k : ResKind) : (s.endTransaction k).st = St.idle := rfl
@[simp] theorem State.endTransaction_m (k : ResKind) : (s.endTransaction k).m = 0 := rfl
@[simp] theorem State.endTransaction_idx (k : ResKind) : (s.endTransaction k).idx = 0 := rfl
@[simp] theorem State.endTransaction_len (k : ResKind) : (s.endTransaction k).len = s.len := rfl
@[simp] theorem State.endTransaction_acc (k : ResKind) : (s.endTransaction k).acc = s.acc := rfl
@[simp] theorem State.endTransaction_buf (k : ResKind) : (s.endTransaction k).buf = s.buf := rfl
@[simp] theorem State.endTransaction_trl (k : ResKind) : (s.endTransaction k).trl = s.trl := rfl
@[simp] theorem State.endTransaction_serr (k : ResKind) : (s.endTransaction k).serr = s.serr := rfl
@[simp] theorem State.endTransaction_rv (k : ResKind) : (s.endTransaction k).rv = true := rfl
@[simp] theorem State.endTransaction_rk (k : ResKind) : (s.endTransaction k).rk = k := rfl
@[simp] theorem State.endTransaction_host (k : ResKind) : (s.endTransaction k).host = s.host := rfl
@[simp] theorem State.endTransaction_source (k : ResKind) : (s.endTransaction k).source = s.source := rfl
@[simp] theorem State.endTransaction_hostFree (k : ResKind) : (s.endTransaction k).hostFree = s.hostFree := rfl
@[simp] theorem State.endTransaction_sourceFree (k : ResKind) : (s.endTransaction k).sourceFree = s.sourceFree := rfl

/-! `raiseSerial` -/

@[simp] theorem State.raiseSerial_st (e : SerialErr) : (s.raiseSerial e).st = St.idle := rfl
@[simp] theorem State.raiseSerial_m (e : SerialErr) : (s.raiseSerial e).m = 0 := rfl
@[simp] theorem State.raiseSerial_idx (e : SerialErr) : (s.raiseSerial e).idx = 0 := rfl
@[simp] theorem State.raiseSerial_len (e : SerialErr) : (s.raiseSerial e).len = s.len := rfl
@[simp] theorem State.raiseSerial_acc (e : SerialErr) : (s.raiseSerial e).acc = s.acc := rfl
@[simp] theorem State.raiseSerial_buf (e : SerialErr) : (s.raiseSerial e).buf = s.buf := rfl
@[simp] theorem State.raiseSerial_trl (e : SerialErr) : (s.raiseSerial e).trl = s.trl := rfl
@[simp] theorem State.raiseSerial_serr (e : SerialErr) : (s.raiseSerial e).serr = e := rfl
@[simp] theorem State.raiseSerial_rv (e : SerialErr) : (s.raiseSerial e).rv = true := rfl
@[simp] theorem State.raiseSerial_rk (e : SerialErr) : (s.raiseSerial e).rk = .serial := rfl
@[simp] theorem State.raiseSerial_host (e : SerialErr) : (s.raiseSerial e).host = s.host := rfl
@[simp] theorem State.raiseSerial_source (e : SerialErr) : (s.raiseSerial e).source = s.source := rfl
@[simp] theorem State.raiseSerial_hostFree (e : SerialErr) : (s.raiseSerial e).hostFree = s.hostFree := rfl
@[simp] theorem State.raiseSerial_sourceFree (e : SerialErr) : (s.raiseSerial e).sourceFree = s.sourceFree := rfl

/-! `startTransaction` -/

@[simp] theorem State.startTransaction_st : (s.startTransaction).st = St.sync := rfl
@[simp] theorem State.startTransaction_m : (s.startTransaction).m = 0 := rfl
@[simp] theorem State.startTransaction_idx : (s.startTransaction).idx = 0 := rfl
@[simp] theorem State.startTransaction_len : (s.startTransaction).len = 0 := rfl
@[simp] theorem State.startTransaction_acc : (s.startTransaction).acc = 0 := rfl
@[simp] theorem State.startTransaction_buf : (s.startTransaction).buf = [] := rfl
@[simp] theorem State.startTransaction_trl : (s.startTransaction).trl = 0 := rfl
@[simp] theorem State.startTransaction_serr : (s.startTransaction).serr = 0 := rfl
@[simp] theorem State.startTransaction_rv : (s.startTransaction).rv = false := rfl
@[simp] theorem State.startTransaction_rk : (s.startTransaction).rk = .ok := rfl
@[simp] theorem State.startTransaction_host : (s.startTransaction).host = s.host := rfl
@[simp] theorem State.startTransaction_source : (s.startTransaction).source = s.source := rfl
@[simp] theorem State.startTransaction_hostFree : (s.startTransaction).hostFree = s.hostFree := rfl
@[simp] theorem State.startTransaction_sourceFree : (s.startTransaction).sourceFree = s.sourceFree := rfl

/-! `resetRegisters` -/

@[simp] theorem State.resetRegisters_st : (s.resetRegisters).st = St.idle := rfl
@[simp] theorem State.resetRegisters_m : (s.resetRegisters).m = 0 := rfl
@[simp] theorem State.resetRegisters_idx : (s.resetRegisters).idx = 0 := rfl
@[simp] theorem State.resetRegisters_len : (s.resetRegisters).len = 0 := rfl
@[simp] theorem State.resetRegisters_acc : (s.resetRegisters).acc = 0 := rfl
@[simp] theorem State.resetRegisters_buf : (s.resetRegisters).buf = [] := rfl
@[simp] theorem State.resetRegisters_trl : (s.resetRegisters).trl = 0 := rfl
@[simp] theorem State.resetRegisters_serr : (s.resetRegisters).serr = 0 := rfl
@[simp] theorem State.resetRegisters_rv : (s.resetRegisters).rv = false := rfl
@[simp] theorem State.resetRegisters_rk : (s.resetRegisters).rk = .ok := rfl
@[simp] theorem State.resetRegisters_host : (s.resetRegisters).host = s.host := rfl
@[simp] theorem State.resetRegisters_source : (s.resetRegisters).source = s.source := rfl
@[simp] theorem State.resetRegisters_hostFree : (s.resetRegisters).hostFree = s.hostFree := rfl
@[simp] theorem State.resetRegisters_sourceFree : (s.resetRegisters).sourceFree = s.sourceFree := rfl

/-! `recover` -/

@[simp] theorem State.recover_st : (s.recover).st = St.idle := rfl
@[simp] theorem State.recover_m : (s.recover).m = 0 := rfl
@[simp] theorem State.recover_idx : (s.recover).idx = 0 := rfl
@[simp] theorem State.recover_len : (s.recover).len = s.len := rfl
@[simp] theorem State.recover_acc : (s.recover).acc = s.acc := rfl
@[simp] theorem State.recover_buf : (s.recover).buf = s.buf := rfl
@[simp] theorem State.recover_trl : (s.recover).trl = s.trl := rfl
@[simp] theorem State.recover_serr : (s.recover).serr = s.serr := rfl
@[simp] theorem State.recover_rv : (s.recover).rv = false := rfl
@[simp] theorem State.recover_rk : (s.recover).rk = .ok := rfl
@[simp] theorem State.recover_host : (s.recover).host = s.host := rfl
@[simp] theorem State.recover_source : (s.recover).source = s.source := rfl
@[simp] theorem State.recover_hostFree : (s.recover).hostFree = s.hostFree := rfl
@[simp] theorem State.recover_sourceFree : (s.recover).sourceFree = s.sourceFree := rfl

/-! The three endings that write no value register are `endTransaction`. -/

@[simp] theorem State.raiseInvalidLength_eq : s.raiseInvalidLength = s.endTransaction .invalidLength := rfl
@[simp] theorem State.raiseInvalidData_eq : s.raiseInvalidData = s.endTransaction .invalidData := rfl
@[simp] theorem State.completeOk_eq : s.completeOk = s.endTransaction .ok := rfl

/-! An edge moves the environment on and leaves every register. -/

@[simp] theorem State.dropHost_st : s.dropHost.st = s.st := by unfold State.dropHost; split <;> rfl
@[simp] theorem State.dropHost_m : s.dropHost.m = s.m := by unfold State.dropHost; split <;> rfl
@[simp] theorem State.dropHost_idx : s.dropHost.idx = s.idx := by unfold State.dropHost; split <;> rfl
@[simp] theorem State.dropHost_len : s.dropHost.len = s.len := by unfold State.dropHost; split <;> rfl
@[simp] theorem State.dropHost_acc : s.dropHost.acc = s.acc := by unfold State.dropHost; split <;> rfl
@[simp] theorem State.dropHost_buf : s.dropHost.buf = s.buf := by unfold State.dropHost; split <;> rfl
@[simp] theorem State.dropHost_trl : s.dropHost.trl = s.trl := by unfold State.dropHost; split <;> rfl
@[simp] theorem State.dropHost_serr : s.dropHost.serr = s.serr := by unfold State.dropHost; split <;> rfl
@[simp] theorem State.dropHost_rv : s.dropHost.rv = s.rv := by unfold State.dropHost; split <;> rfl
@[simp] theorem State.dropHost_rk : s.dropHost.rk = s.rk := by unfold State.dropHost; split <;> rfl
@[simp] theorem State.dropHost_source : s.dropHost.source = s.source := by unfold State.dropHost; split <;> rfl
@[simp] theorem State.dropHost_sourceFree : s.dropHost.sourceFree = s.sourceFree := by unfold State.dropHost; split <;> rfl
@[simp] theorem State.dropHost_host : s.dropHost.host = s.host.tail := by unfold State.dropHost; split <;> simp_all
@[simp] theorem State.dropSource_st : s.dropSource.st = s.st := by unfold State.dropSource; split <;> rfl
@[simp] theorem State.dropSource_m : s.dropSource.m = s.m := by unfold State.dropSource; split <;> rfl
@[simp] theorem State.dropSource_idx : s.dropSource.idx = s.idx := by unfold State.dropSource; split <;> rfl
@[simp] theorem State.dropSource_len : s.dropSource.len = s.len := by unfold State.dropSource; split <;> rfl
@[simp] theorem State.dropSource_acc : s.dropSource.acc = s.acc := by unfold State.dropSource; split <;> rfl
@[simp] theorem State.dropSource_buf : s.dropSource.buf = s.buf := by unfold State.dropSource; split <;> rfl
@[simp] theorem State.dropSource_trl : s.dropSource.trl = s.trl := by unfold State.dropSource; split <;> rfl
@[simp] theorem State.dropSource_serr : s.dropSource.serr = s.serr := by unfold State.dropSource; split <;> rfl
@[simp] theorem State.dropSource_rv : s.dropSource.rv = s.rv := by unfold State.dropSource; split <;> rfl
@[simp] theorem State.dropSource_rk : s.dropSource.rk = s.rk := by unfold State.dropSource; split <;> rfl
@[simp] theorem State.dropSource_host : s.dropSource.host = s.host := by unfold State.dropSource; split <;> rfl
@[simp] theorem State.dropSource_hostFree : s.dropSource.hostFree = s.hostFree := by unfold State.dropSource; split <;> rfl
@[simp] theorem State.dropSource_source : s.dropSource.source = s.source.tail := by unfold State.dropSource; split <;> simp_all
@[simp] theorem State.passEdge_st : s.passEdge.st = s.st := by unfold State.passEdge; split <;> simp
@[simp] theorem State.passEdge_m : s.passEdge.m = s.m := by unfold State.passEdge; split <;> simp
@[simp] theorem State.passEdge_idx : s.passEdge.idx = s.idx := by unfold State.passEdge; split <;> simp
@[simp] theorem State.passEdge_len : s.passEdge.len = s.len := by unfold State.passEdge; split <;> simp
@[simp] theorem State.passEdge_acc : s.passEdge.acc = s.acc := by unfold State.passEdge; split <;> simp
@[simp] theorem State.passEdge_buf : s.passEdge.buf = s.buf := by unfold State.passEdge; split <;> simp
@[simp] theorem State.passEdge_trl : s.passEdge.trl = s.trl := by unfold State.passEdge; split <;> simp
@[simp] theorem State.passEdge_serr : s.passEdge.serr = s.serr := by unfold State.passEdge; split <;> simp
@[simp] theorem State.passEdge_rv : s.passEdge.rv = s.rv := by unfold State.passEdge; split <;> simp
@[simp] theorem State.passEdge_rk : s.passEdge.rk = s.rk := by unfold State.passEdge; split <;> simp
@[simp] theorem State.passEdge_host : s.passEdge.host = s.host.tail := by unfold State.passEdge; split <;> simp

/-- What an edge leaves of the stream: a slot passes when it holds no response or its response is accepted. -/
theorem State.passEdge_source : s.passEdge.source = if s.slotPasses then s.source.tail else s.source := by
  unfold State.passEdge; split <;> simp_all

end Sys2Proof.Machine
end

