-- ==== Sys2Proof/Laws/Table.lean ====
section
/-! SUPPORT. Each match and mask pair of the decode table as a condition on the fields of the key (R73, R75). -/

namespace Sys2Proof

section
variable (rst : Bool) (st : BitVec 3) (m : BitVec 1) (idx : BitVec 5) (start inValid inIsErr : Bool) (inData : Byte)

/-- A mask of all ones leaves a byte. -/
@[simp] theorem byte_and_ones : inData &&& 0xFF#8 = inData := BitVec.and_allOnes

/-- A mask of all ones leaves an index. -/
@[simp] theorem index_and_ones : idx &&& 0x1F#5 = idx := BitVec.and_allOnes

/-- A mask of all ones leaves a state code. -/
@[simp] theorem code_and_ones : st &&& 0x7#3 = st := BitVec.and_allOnes

/-- A mask of one leaves a bit. -/
@[simp] theorem bit_and_one : m &&& 0x1#1 = m := BitVec.and_allOnes

@[simp] theorem Pattern.fits_reset :
    Pattern.fits ⟨0x100000#21, 0x100000#21⟩ (Key.pack rst st m idx start inValid inIsErr inData) =
      (rst) := by
  have hv : 0x100000#21 = Key.pack true 0 0 0 false false false 0 := by decide
  rw [hv, Pattern.fits_pack]
  simp

@[simp] theorem Pattern.fits_illegal_1 :
    Pattern.fits ⟨0x0A0000#21, 0x1E0000#21⟩ (Key.pack rst st m idx start inValid inIsErr inData) =
      (!rst && st == 0x5#3) := by
  have hv : 0x0A0000#21 = Key.pack false 5 0 0 false false false 0 := by decide
  have hm : 0x1E0000#21 = Key.pack true 7 0 0 false false false 0 := by decide
  rw [hv, hm, Pattern.fits_pack]
  simp

@[simp] theorem Pattern.fits_illegal_2 :
    Pattern.fits ⟨0x0C0000#21, 0x1C0000#21⟩ (Key.pack rst st m idx start inValid inIsErr inData) =
      (!rst && st &&& 0x6#3 == 0x6#3) := by
  have hv : 0x0C0000#21 = Key.pack false 6 0 0 false false false 0 := by decide
  have hm : 0x1C0000#21 = Key.pack true 6 0 0 false false false 0 := by decide
  rw [hv, hm, Pattern.fits_pack]
  simp

@[simp] theorem Pattern.fits_illegal_3 :
    Pattern.fits ⟨0x048000#21, 0x1E8000#21⟩ (Key.pack rst st m idx start inValid inIsErr inData) =
      (!rst && st == 0x2#3 && idx &&& 0x10#5 == 0x10#5) := by
  have hv : 0x048000#21 = Key.pack false 2 0 16 false false false 0 := by decide
  have hm : 0x1E8000#21 = Key.pack true 7 0 16 false false false 0 := by decide
  rw [hv, hm, Pattern.fits_pack]
  simp

@[simp] theorem Pattern.fits_illegal_4 :
    Pattern.fits ⟨0x044000#21, 0x1EC000#21⟩ (Key.pack rst st m idx start inValid inIsErr inData) =
      (!rst && st == 0x2#3 && idx &&& 0x18#5 == 0x8#5) := by
  have hv : 0x044000#21 = Key.pack false 2 0 8 false false false 0 := by decide
  have hm : 0x1EC000#21 = Key.pack true 7 0 24 false false false 0 := by decide
  rw [hv, hm, Pattern.fits_pack]
  simp

@[simp] theorem Pattern.fits_illegal_5 :
    Pattern.fits ⟨0x042000#21, 0x1EE000#21⟩ (Key.pack rst st m idx start inValid inIsErr inData) =
      (!rst && st == 0x2#3 && idx &&& 0x1c#5 == 0x4#5) := by
  have hv : 0x042000#21 = Key.pack false 2 0 4 false false false 0 := by decide
  have hm : 0x1EE000#21 = Key.pack true 7 0 28 false false false 0 := by decide
  rw [hv, hm, Pattern.fits_pack]
  simp

@[simp] theorem Pattern.fits_illegal_6 :
    Pattern.fits ⟨0x041000#21, 0x1EF000#21⟩ (Key.pack rst st m idx start inValid inIsErr inData) =
      (!rst && st == 0x2#3 && idx &&& 0x1e#5 == 0x2#5) := by
  have hv : 0x041000#21 = Key.pack false 2 0 2 false false false 0 := by decide
  have hm : 0x1EF000#21 = Key.pack true 7 0 30 false false false 0 := by decide
  rw [hv, hm, Pattern.fits_pack]
  simp

@[simp] theorem Pattern.fits_illegal_7 :
    Pattern.fits ⟨0x088000#21, 0x1E8000#21⟩ (Key.pack rst st m idx start inValid inIsErr inData) =
      (!rst && st == 0x4#3 && idx &&& 0x10#5 == 0x10#5) := by
  have hv : 0x088000#21 = Key.pack false 4 0 16 false false false 0 := by decide
  have hm : 0x1E8000#21 = Key.pack true 7 0 16 false false false 0 := by decide
  rw [hv, hm, Pattern.fits_pack]
  simp

@[simp] theorem Pattern.fits_illegal_8 :
    Pattern.fits ⟨0x084000#21, 0x1EC000#21⟩ (Key.pack rst st m idx start inValid inIsErr inData) =
      (!rst && st == 0x4#3 && idx &&& 0x18#5 == 0x8#5) := by
  have hv : 0x084000#21 = Key.pack false 4 0 8 false false false 0 := by decide
  have hm : 0x1EC000#21 = Key.pack true 7 0 24 false false false 0 := by decide
  rw [hv, hm, Pattern.fits_pack]
  simp

@[simp] theorem Pattern.fits_illegal_9 :
    Pattern.fits ⟨0x082000#21, 0x1EE000#21⟩ (Key.pack rst st m idx start inValid inIsErr inData) =
      (!rst && st == 0x4#3 && idx &&& 0x1c#5 == 0x4#5) := by
  have hv : 0x082000#21 = Key.pack false 4 0 4 false false false 0 := by decide
  have hm : 0x1EE000#21 = Key.pack true 7 0 28 false false false 0 := by decide
  rw [hv, hm, Pattern.fits_pack]
  simp

@[simp] theorem Pattern.fits_illegal_10 :
    Pattern.fits ⟨0x081000#21, 0x1EF000#21⟩ (Key.pack rst st m idx start inValid inIsErr inData) =
      (!rst && st == 0x4#3 && idx &&& 0x1e#5 == 0x2#5) := by
  have hv : 0x081000#21 = Key.pack false 4 0 2 false false false 0 := by decide
  have hm : 0x1EF000#21 = Key.pack true 7 0 30 false false false 0 := by decide
  rw [hv, hm, Pattern.fits_pack]
  simp

@[simp] theorem Pattern.fits_illegal_11 :
    Pattern.fits ⟨0x06D000#21, 0x1EF000#21⟩ (Key.pack rst st m idx start inValid inIsErr inData) =
      (!rst && st == 0x3#3 && idx &&& 0x1e#5 == 0x1a#5) := by
  have hv : 0x06D000#21 = Key.pack false 3 0 26 false false false 0 := by decide
  have hm : 0x1EF000#21 = Key.pack true 7 0 30 false false false 0 := by decide
  rw [hv, hm, Pattern.fits_pack]
  simp

@[simp] theorem Pattern.fits_illegal_12 :
    Pattern.fits ⟨0x06E000#21, 0x1EE000#21⟩ (Key.pack rst st m idx start inValid inIsErr inData) =
      (!rst && st == 0x3#3 && idx &&& 0x1c#5 == 0x1c#5) := by
  have hv : 0x06E000#21 = Key.pack false 3 0 28 false false false 0 := by decide
  have hm : 0x1EE000#21 = Key.pack true 7 0 28 false false false 0 := by decide
  rw [hv, hm, Pattern.fits_pack]
  simp

@[simp] theorem Pattern.fits_idle_start :
    Pattern.fits ⟨0x000400#21, 0x1E0400#21⟩ (Key.pack rst st m idx start inValid inIsErr inData) =
      (!rst && st == 0x0#3 && start) := by
  have hv : 0x000400#21 = Key.pack false 0 0 0 true false false 0 := by decide
  have hm : 0x1E0400#21 = Key.pack true 7 0 0 true false false 0 := by decide
  rw [hv, hm, Pattern.fits_pack]
  simp

@[simp] theorem Pattern.fits_idle_hold :
    Pattern.fits ⟨0x000000#21, 0x1E0400#21⟩ (Key.pack rst st m idx start inValid inIsErr inData) =
      (!rst && st == 0x0#3 && !start) := by
  have hv : 0x000000#21 = Key.pack false 0 0 0 false false false 0 := by decide
  have hm : 0x1E0400#21 = Key.pack true 7 0 0 true false false 0 := by decide
  rw [hv, hm, Pattern.fits_pack]
  simp

@[simp] theorem Pattern.fits_busy_serr :
    Pattern.fits ⟨0x000300#21, 0x100300#21⟩ (Key.pack rst st m idx start inValid inIsErr inData) =
      (!rst && inValid && inIsErr) := by
  have hv : 0x000300#21 = Key.pack false 0 0 0 false true true 0 := by decide
  have hm : 0x100300#21 = Key.pack true 0 0 0 false true true 0 := by decide
  rw [hv, hm, Pattern.fits_pack]
  simp

@[simp] theorem Pattern.fits_busy_wait :
    Pattern.fits ⟨0x000000#21, 0x100200#21⟩ (Key.pack rst st m idx start inValid inIsErr inData) =
      (!rst && !inValid) := by
  have hv : 0x000000#21 = Key.pack false 0 0 0 false false false 0 := by decide
  have hm : 0x100200#21 = Key.pack true 0 0 0 false true false 0 := by decide
  rw [hv, hm, Pattern.fits_pack]
  simp

@[simp] theorem Pattern.fits_sync_hit0 :
    Pattern.fits ⟨0x020242#21, 0x1F03FF#21⟩ (Key.pack rst st m idx start inValid inIsErr inData) =
      (!rst && st == 0x1#3 && m == 0x0#1 && inValid && !inIsErr && inData == 0x42#8) := by
  have hv : 0x020242#21 = Key.pack false 1 0 0 false true false 66 := by decide
  have hm : 0x1F03FF#21 = Key.pack true 7 1 0 false true true 255 := by decide
  rw [hv, hm, Pattern.fits_pack]
  simp

@[simp] theorem Pattern.fits_sync_miss0 :
    Pattern.fits ⟨0x020200#21, 0x1F0300#21⟩ (Key.pack rst st m idx start inValid inIsErr inData) =
      (!rst && st == 0x1#3 && m == 0x0#1 && inValid && !inIsErr) := by
  have hv : 0x020200#21 = Key.pack false 1 0 0 false true false 0 := by decide
  have hm : 0x1F0300#21 = Key.pack true 7 1 0 false true true 0 := by decide
  rw [hv, hm, Pattern.fits_pack]
  simp

@[simp] theorem Pattern.fits_sync_hit1 :
    Pattern.fits ⟨0x03024D#21, 0x1F03FF#21⟩ (Key.pack rst st m idx start inValid inIsErr inData) =
      (!rst && st == 0x1#3 && m == 0x1#1 && inValid && !inIsErr && inData == 0x4d#8) := by
  have hv : 0x03024D#21 = Key.pack false 1 1 0 false true false 77 := by decide
  have hm : 0x1F03FF#21 = Key.pack true 7 1 0 false true true 255 := by decide
  rw [hv, hm, Pattern.fits_pack]
  simp

@[simp] theorem Pattern.fits_sync_miss1 :
    Pattern.fits ⟨0x030200#21, 0x1F0300#21⟩ (Key.pack rst st m idx start inValid inIsErr inData) =
      (!rst && st == 0x1#3 && m == 0x1#1 && inValid && !inIsErr) := by
  have hv : 0x030200#21 = Key.pack false 1 1 0 false true false 0 := by decide
  have hm : 0x1F0300#21 = Key.pack true 7 1 0 false true true 0 := by decide
  rw [hv, hm, Pattern.fits_pack]
  simp

@[simp] theorem Pattern.fits_len_hi :
    Pattern.fits ⟨0x040200#21, 0x1EFB00#21⟩ (Key.pack rst st m idx start inValid inIsErr inData) =
      (!rst && st == 0x2#3 && idx == 0x0#5 && inValid && !inIsErr) := by
  have hv : 0x040200#21 = Key.pack false 2 0 0 false true false 0 := by decide
  have hm : 0x1EFB00#21 = Key.pack true 7 0 31 false true true 0 := by decide
  rw [hv, hm, Pattern.fits_pack]
  simp

@[simp] theorem Pattern.fits_len_lo :
    Pattern.fits ⟨0x040A00#21, 0x1EFB00#21⟩ (Key.pack rst st m idx start inValid inIsErr inData) =
      (!rst && st == 0x2#3 && idx == 0x1#5 && inValid && !inIsErr) := by
  have hv : 0x040A00#21 = Key.pack false 2 0 1 false true false 0 := by decide
  have hm : 0x1EFB00#21 = Key.pack true 7 0 31 false true true 0 := by decide
  rw [hv, hm, Pattern.fits_pack]
  simp

@[simp] theorem Pattern.fits_pay_last :
    Pattern.fits ⟨0x06CA00#21, 0x1EFB00#21⟩ (Key.pack rst st m idx start inValid inIsErr inData) =
      (!rst && st == 0x3#3 && idx == 0x19#5 && inValid && !inIsErr) := by
  have hv : 0x06CA00#21 = Key.pack false 3 0 25 false true false 0 := by decide
  have hm : 0x1EFB00#21 = Key.pack true 7 0 31 false true true 0 := by decide
  rw [hv, hm, Pattern.fits_pack]
  simp

@[simp] theorem Pattern.fits_pay_byte :
    Pattern.fits ⟨0x060200#21, 0x1E0300#21⟩ (Key.pack rst st m idx start inValid inIsErr inData) =
      (!rst && st == 0x3#3 && inValid && !inIsErr) := by
  have hv : 0x060200#21 = Key.pack false 3 0 0 false true false 0 := by decide
  have hm : 0x1E0300#21 = Key.pack true 7 0 0 false true true 0 := by decide
  rw [hv, hm, Pattern.fits_pack]
  simp

@[simp] theorem Pattern.fits_chk_hi :
    Pattern.fits ⟨0x080200#21, 0x1EFB00#21⟩ (Key.pack rst st m idx start inValid inIsErr inData) =
      (!rst && st == 0x4#3 && idx == 0x0#5 && inValid && !inIsErr) := by
  have hv : 0x080200#21 = Key.pack false 4 0 0 false true false 0 := by decide
  have hm : 0x1EFB00#21 = Key.pack true 7 0 31 false true true 0 := by decide
  rw [hv, hm, Pattern.fits_pack]
  simp

@[simp] theorem Pattern.fits_chk_lo :
    Pattern.fits ⟨0x080A00#21, 0x1EFB00#21⟩ (Key.pack rst st m idx start inValid inIsErr inData) =
      (!rst && st == 0x4#3 && idx == 0x1#5 && inValid && !inIsErr) := by
  have hv : 0x080A00#21 = Key.pack false 4 0 1 false true false 0 := by decide
  have hm : 0x1EFB00#21 = Key.pack true 7 0 31 false true true 0 := by decide
  rw [hv, hm, Pattern.fits_pack]
  simp

end

end Sys2Proof
end

