-- ==== Sys2Proof/Laws/Edge.lean ====
section
/-! SUPPORT. What one edge does around its transition: the choice of the transition, the environment, and runs of edges. -/

namespace Sys2Proof.Machine

/-- Row 2 of the table is the set of unreachable states (R84). -/
theorem illegalPatterns_fit (rst : Bool) (st : BitVec 3) (m : BitVec 1) (idx : BitVec 5) (start inValid inIsErr : Bool)
    (inData : Byte) :
    illegalPatterns.any (·.fits (Key.pack rst st m idx start inValid inIsErr inData)) = (!rst && unreachable st idx) := by
  simp only [illegalPatterns, List.any_cons, List.any_nil, Pattern.fits_illegal_1, Pattern.fits_illegal_2,
    Pattern.fits_illegal_3, Pattern.fits_illegal_4, Pattern.fits_illegal_5, Pattern.fits_illegal_6, Pattern.fits_illegal_7,
    Pattern.fits_illegal_8, Pattern.fits_illegal_9, Pattern.fits_illegal_10, Pattern.fits_illegal_11,
    Pattern.fits_illegal_12]
  revert rst st idx
  decide

/-- The transition the prose of R76 chooses is well-formed. -/
theorem transitionFor_wf (rst : Bool) (st : BitVec 3) (m : BitVec 1) (idx : BitVec 5) (start inValid inIsErr : Bool)
    (inData : Byte) (e : SerialErr) : (transitionFor rst st m idx start inValid inIsErr inData e).wf = true := by
  unfold transitionFor
  split_ifs <;> simp_all [Instr.wf]
  rename_i hu _ _ _ hlast
  revert hu hlast
  clear * -
  revert idx
  decide

/-- A core is reading exactly when it is neither idle nor in a state R84 recovers from. -/
theorem State.reading_iff (s : State) : s.reading ↔ s.st ≠ St.idle ∧ unreachable s.st s.idx = false := by
  refine ⟨fun h => ⟨fun hi => ?_, h.2⟩, fun h => ⟨?_, h.2⟩⟩
  · exact absurd h.1 (by simp [State.busy_of_idle s hi])
  · obtain ⟨h1, h2⟩ := h
    revert h1 h2
    unfold State.busy
    generalize s.st = x
    generalize s.idx = y
    revert x y
    decide

/-- An edge runs one transition on the state whose environment has moved on. -/
theorem step_is_exec (s t : State) (h : step s = .next t) :
    ∃ i, decode s.edgeKey s.edgeErr = some i ∧ exec i s.passEdge = .next t := by
  unfold step at h
  split at h
  · next i hi => exact ⟨i, hi, h⟩
  · cases h

/-- The lists of pins after an edge: the host's next pins are gone, the source's slot if it passed. -/
theorem step_environment (s t : State) (h : step s = .next t) :
    t.host = s.host.tail ∧ t.source = if s.slotPasses then s.source.tail else s.source := by
  obtain ⟨i, -, hi⟩ := step_is_exec s t h
  obtain ⟨h1, h2, -, -⟩ := exec_environment i _ _ hi
  rw [h1, h2, State.passEdge_host, State.passEdge_source]
  exact ⟨rfl, rfl⟩

/-- An edge that accepts nothing leaves the source as `sourceIfHeld` says. -/
theorem State.source_held (s : State) (h : s.accepts = false) :
    (if s.slotPasses then s.source.tail else s.source) = s.sourceIfHeld := by
  unfold State.slotPasses State.sourceIfHeld
  rw [h]
  cases s.sourcePins.inValid <;> rfl

/-- An idle core accepts nothing (R34). -/
theorem State.accepts_of_idle (s : State) (h : s.idle) : s.accepts = false := by
  simp [State.accepts, State.inReady, State.busy_of_idle s h]

/-- Nothing is accepted at a reset edge (R31, R400). -/
theorem State.accepts_of_rst (s : State) (h : s.hostPins.rst = true) : s.accepts = false := by
  simp [State.accepts, h]

/-- The environment alone shows at no output (R33). -/
theorem State.passEdge_outputs (s : State) : s.passEdge.outputs = s.outputs := by
  apply State.outputs_congr <;> simp

/-- One edge of a run. -/
theorem run_succ (k : Nat) (s t : State) (h : step s = .next t) :
    Host.Core.run core (k + 1) s = Host.Core.run core k t := by
  have hc : core.step s = .next t := h
  simp only [Host.Core.run, hc]

/-- The slots that hold no response do not count (R102). -/
theorem responses_absent (p : SourcePins) (rest : List SourcePins) (h : p.inValid = false) :
    responses (p :: rest) = responses rest := by
  simp [responses, slotResponse, h]

end Sys2Proof.Machine
end

