-- ==== Sys2Proof/Laws/PerInstr.lean ====
section
/-! SUPPORT. Statements made for each constructor of Instr. -/

namespace Sys2Proof.Laws.RowMatch

/-- The encoding of the instruction has a match and mask pair of the table row that bears its mnemonic (R75), whatever its
operands are. -/
def Statement (i : Instr) : Prop := ∃ r ∈ rows, r.mnemonic = i.mnemonic ∧ r.fits (encode i).1 = true

theorem reset : Statement .reset := ⟨rows[0], by simp [rows], rfl, by decide⟩
theorem illegal : Statement .illegal := ⟨rows[1], by simp [rows], rfl, by decide⟩
theorem idleStart : Statement .idleStart := ⟨rows[2], by simp [rows], rfl, by decide⟩
theorem idleHold : Statement .idleHold := ⟨rows[3], by simp [rows], rfl, by decide⟩
theorem busySerr (e : SerialErr) : Statement (.busySerr e) := ⟨rows[4], by simp [rows], rfl, by simp [rows, Row.fits, encode]⟩
theorem busyWait : Statement .busyWait := ⟨rows[5], by simp [rows], rfl, by decide⟩
theorem syncHit0 : Statement .syncHit0 := ⟨rows[6], by simp [rows], rfl, by decide⟩
theorem syncMiss0 (b : Byte) : Statement (.syncMiss0 b) := ⟨rows[7], by simp [rows], rfl, by simp [rows, Row.fits, encode]⟩
theorem syncHit1 : Statement .syncHit1 := ⟨rows[8], by simp [rows], rfl, by decide⟩
theorem syncMiss1 (b : Byte) : Statement (.syncMiss1 b) := ⟨rows[9], by simp [rows], rfl, by simp [rows, Row.fits, encode]⟩
theorem lenHi (b : Byte) : Statement (.lenHi b) := ⟨rows[10], by simp [rows], rfl, by simp [rows, Row.fits, encode]⟩
theorem lenLo (b : Byte) : Statement (.lenLo b) := ⟨rows[11], by simp [rows], rfl, by simp [rows, Row.fits, encode]⟩
theorem payLast (b : Byte) : Statement (.payLast b) := ⟨rows[12], by simp [rows], rfl, by simp [rows, Row.fits, encode]⟩
theorem payByte (idx : BitVec 5) (b : Byte) : Statement (.payByte idx b) :=
  ⟨rows[13], by simp [rows], rfl, by simp [rows, Row.fits, encode]⟩
theorem chkHi (b : Byte) : Statement (.chkHi b) := ⟨rows[14], by simp [rows], rfl, by simp [rows, Row.fits, encode]⟩
theorem chkLo (b : Byte) : Statement (.chkLo b) := ⟨rows[15], by simp [rows], rfl, by simp [rows, Row.fits, encode]⟩

end Sys2Proof.Laws.RowMatch
end

