-- ==== Sys2Proof/Tests/Slice0.lean ====
section
/-! SUPPORT. The model's own tests. Expected values are those of spec/95_test_vectors.md (V-..., W..., P...), of the examples of
the numbered rules, or of the patterns of R75 written out bit by bit. -/

namespace Sys2Proof.Tests

open Sys2Proof Sys2Proof.Machine

/-! ## Helpers -/

/-- The registers after reset with another sequencing state. -/
def inState (st : BitVec 3) (m : BitVec 1) (idx : BitVec 5) : State := { State.reset with st := st, m := m, idx := idx }

/-- The host asserts nothing. -/
def quiet : HostPins := ⟨false, false⟩

/-- The host asserts start. -/
def starting : HostPins := ⟨false, true⟩

/-- The state with the pins of its coming edge. -/
def atEdge (s : State) (h : HostPins) (p : SourcePins) : State := { s with host := [h], source := [p] }

/-- The next state, if there is one. -/
def nextOf : Host.Outcome State Fault Refusal → Option State
  | .next t => some t
  | .fault _ => none
  | .refused _ => none

/-- The sequencing registers and the result flag. -/
def control (o : Host.Outcome State Fault Refusal) : Option (BitVec 3 × BitVec 1 × BitVec 5 × Bool × ResKind) :=
  (nextOf o).map fun t => (t.st, t.m, t.idx, t.rv, t.rk)

/-- The 16-bit registers and the buffer. -/
structure Values where
  len : Half
  acc : Half
  trl : Half
  buf : Memory
  deriving DecidableEq, Repr

/-- The 16-bit registers and the buffer of the next state. -/
def values (o : Host.Outcome State Fault Refusal) : Option Values :=
  (nextOf o).map fun t => ⟨t.len, t.acc, t.trl, t.buf⟩

/-- How many slots the source still holds. -/
def slotsLeft (o : Host.Outcome State Fault Refusal) : Option Nat := (nextOf o).map fun t => t.source.length

/-- An outcome whose next state has a property that is computed. -/
theorem exists_next (o : Host.Outcome State Fault Refusal) (p : State → Bool) (h : (nextOf o).any p = true) :
    ∃ t, o = .next t ∧ p t = true := by
  cases o with
  | next t => exact ⟨t, rfl, h⟩
  | fault _ => cases h
  | refused _ => cases h

/-- The bytes 00 to 19 of V-44.7 and V-45.1. -/
def countingPayload : List Byte := (List.range 26).map (BitVec.ofNat 8)

/-- 26 zero bytes. -/
def zeroPayload : List Byte := List.replicate 26 0

/-! ## WellFormed refuses -/

theorem test_wf_refuses_syncMiss0_marker0 : (Instr.syncMiss0 0x42).wf = false := by decide
theorem test_wf_refuses_syncMiss1_marker1 : (Instr.syncMiss1 0x4D).wf = false := by decide
theorem test_wf_refuses_payByte_25 : (Instr.payByte 25 0).wf = false := by decide
theorem test_wf_refuses_payByte_31 : (Instr.payByte 31 0).wf = false := by decide

/-! ## Decoding, from the patterns of R75 (rst_st_m_idx_start_valid_iserr_data) -/

theorem test_decode_reset : decodeTableWord 24 0b1_011_1_11111_1_1_1_11111111 = some .reset := by decide
theorem test_decode_illegal : decodeTableWord 24 0b0_101_1_00000_1_1_1_00000000 = some .illegal := by decide
theorem test_decode_idleStart : decodeTableWord 24 0b0_000_1_11111_1_1_1_11111111 = some .idleStart := by decide
theorem test_decode_idleHold : decodeTableWord 24 0b0_000_1_11111_0_1_1_11111111 = some .idleHold := by decide
theorem test_decode_busySerr : decodeTableWord 24 0b0_001_1_00000_1_1_1_01001101 = some (.busySerr 0) := by rfl
theorem test_decode_busyWait : decodeTableWord 24 0b0_100_0_00001_1_0_1_01001101 = some .busyWait := by decide
theorem test_decode_syncHit0 : decodeTableWord 24 0b0_001_0_11111_1_1_0_01000010 = some .syncHit0 := by decide
theorem test_decode_syncMiss0 : decodeTableWord 24 0b0_001_0_00000_0_1_0_01001101 = some (.syncMiss0 0x4D) := by decide
theorem test_decode_syncHit1 : decodeTableWord 24 0b0_001_1_00000_1_1_0_01001101 = some .syncHit1 := by decide
theorem test_decode_syncMiss1 : decodeTableWord 24 0b0_001_1_00000_0_1_0_01000010 = some (.syncMiss1 0x42) := by decide
theorem test_decode_lenHi : decodeTableWord 24 0b0_010_1_00000_0_1_0_10000001 = some (.lenHi 0x81) := by decide
theorem test_decode_lenLo : decodeTableWord 24 0b0_010_0_00001_1_1_0_00011100 = some (.lenLo 0x1C) := by decide
theorem test_decode_payLast : decodeTableWord 24 0b0_011_0_11001_0_1_0_11110000 = some (.payLast 0xF0) := by decide
theorem test_decode_payByte : decodeTableWord 24 0b0_011_0_11000_0_1_0_00001111 = some (.payByte 24 0x0F) := by decide
theorem test_decode_chkHi : decodeTableWord 24 0b0_100_0_00000_0_1_0_00000011 = some (.chkHi 0x03) := by decide
theorem test_decode_chkLo : decodeTableWord 24 0b0_100_0_00001_0_1_0_01011101 = some (.chkLo 0x5D) := by decide

/-- R84: each of the twelve alternatives, at its lowest word, is recovered, not read as a neighbour. -/
theorem test_decode_illegal_alternatives :
    ([0x0A0000, 0x0C0000, 0x048000, 0x044000, 0x042000, 0x041000, 0x088000, 0x084000, 0x082000, 0x081000, 0x06D000,
      0x06E000].all fun w => decodeTableWord 24 w == some .illegal) = true := by decide

/-- A number above the key is refused by name. -/
theorem test_decode_refuses_wide : (match decodeWord 0x200000 0 with | .error .notAKey => true | _ => false) = true := by decide

/-! ## One edge each -/

/-- V-70.1. -/
theorem test_reset_in_len :
    control (step (atEdge { inState St.len 0 1 with acc := 0x8F } ⟨true, false⟩ (byteSlot 0x1C))) =
      some (0, 0, 0, false, .ok) ∧
    values (step (atEdge { inState St.len 0 1 with acc := 0x8F } ⟨true, false⟩ (byteSlot 0x1C))) = some ⟨0, 0, 0, []⟩ := by
  decide

/-- V-70.2, and R400: no response is accepted. -/
theorem test_reset_ignores_start :
    control (step (atEdge { State.reset with rv := true } ⟨true, true⟩ (byteSlot 0x42))) = some (0, 0, 0, false, .ok) ∧
    slotsLeft (step (atEdge { State.reset with rv := true } ⟨true, true⟩ (byteSlot 0x42))) = some 1 := by decide

/-- R84: an idx out of range is recovered from and the presented response is consumed. -/
theorem test_illegal_index :
    control (step (atEdge (inState St.pay 0 26) quiet (byteSlot 0x55))) = some (0, 0, 0, false, .ok) ∧
    slotsLeft (step (atEdge (inState St.pay 0 26) quiet (byteSlot 0x55))) = some 0 := by decide

/-- R84: a reserved st is recovered from and no response is taken. -/
theorem test_illegal_state :
    control (step (atEdge { inState 7 1 3 with rv := true, rk := .serial } starting (byteSlot 0x55))) =
      some (0, 0, 0, false, .ok) ∧
    slotsLeft (step (atEdge (inState 7 1 3) starting (byteSlot 0x55))) = some 1 := by decide

/-- V-40.1. -/
theorem test_idleStart :
    control (step (atEdge { State.reset with rv := true, rk := .invalidLength, len := 0x1A } starting (byteSlot 0x42))) =
      some (1, 0, 0, false, .ok) ∧
    values (step (atEdge { State.reset with rv := true, rk := .invalidLength, len := 0x1A } starting (byteSlot 0x42))) =
      some ⟨0, 0, 0, []⟩ := by decide

/-- V-40.3. -/
theorem test_idleHold :
    control (step (atEdge { State.reset with rv := true } quiet (errSlot 0))) = some (0, 0, 0, true, .ok) ∧
    slotsLeft (step (atEdge { State.reset with rv := true } quiet (errSlot 0))) = some 1 := by decide

/-- V-43.4 and V-60.4, for every error value. -/
theorem test_busySerr (e : SerialErr) :
    ∃ t, exec (.busySerr e) (inState St.pay 0 3) = .next t ∧ t.outputs.resKind = 3#2 ∧ t.outputs.resSerialErr = e ∧
      t.outputs.res = Measurement.zero := ⟨_, rfl, rfl, rfl, rfl⟩

/-- V-60.2. -/
theorem test_busySerr_in_sync :
    control (step (atEdge (inState St.sync 1 0) quiet (errSlot 2))) = some (0, 0, 0, true, .serial) := by decide

/-- V-40.4, one waiting edge of it. -/
theorem test_busyWait :
    control (step (atEdge (inState St.pay 0 7) quiet absentSlot)) = some (3, 0, 7, false, .ok) := by decide

/-- V-41.1. -/
theorem test_syncHit0 : control (step (atEdge (inState St.sync 0 0) quiet (byteSlot 0x42))) = some (1, 1, 0, false, .ok) := by
  decide

/-- V-41.2. -/
theorem test_syncMiss0 : control (step (atEdge (inState St.sync 0 0) quiet (byteSlot 0x4D))) = some (1, 0, 0, false, .ok) := by
  decide

/-- V-41.5. -/
theorem test_syncHit1 :
    control (step (atEdge (inState St.sync 1 0) quiet (byteSlot 0x4D))) = some (2, 0, 0, false, .ok) ∧
    values (step (atEdge (inState St.sync 1 0) quiet (byteSlot 0x4D))) = some ⟨0, 0x8F, 0, []⟩ := by decide

/-- V-41.6. -/
theorem test_syncMiss1 : control (step (atEdge (inState St.sync 1 0) quiet (byteSlot 0x42))) = some (1, 0, 0, false, .ok) := by
  decide

/-- The example of R140, and a high byte of V-42.3. -/
theorem test_lenHi :
    values (step (atEdge { inState St.len 0 0 with acc := 0x8F } quiet (byteSlot 0))) = some ⟨0, 0x8F, 0, []⟩ ∧
    values (step (atEdge { inState St.len 0 0 with acc := 0x8F } quiet (byteSlot 1))) = some ⟨0x0100, 0x90, 0, []⟩ := by
  decide

/-- V-40.5 and V-42.1. -/
theorem test_lenLo_28 :
    control (step (atEdge { inState St.len 0 1 with acc := 0x8F } starting (byteSlot 0x1C))) = some (3, 0, 0, false, .ok) ∧
    values (step (atEdge { inState St.len 0 1 with acc := 0x8F } starting (byteSlot 0x1C))) = some ⟨28, 0xAB, 0, []⟩ := by
  decide

/-- V-42.4: the byte order. -/
theorem test_lenLo_swapped :
    control (step (atEdge { inState St.len 0 1 with len := 0x1C00, acc := 0xAB } quiet (byteSlot 0))) =
      some (0, 0, 0, true, .invalidLength) ∧
    (nextOf (step (atEdge { inState St.len 0 1 with len := 0x1C00, acc := 0xAB } quiet (byteSlot 0)))).map
      (fun t => t.outputs.resLen) = some 0x1C00 := by decide

/-- V-43.1. -/
theorem test_payByte_first :
    values (step (atEdge { inState St.pay 0 0 with acc := 0xAB } quiet (byteSlot 3))) = some ⟨0, 0xAE, 0, [(0, 3)]⟩ := by decide

/-- V-43.2. -/
theorem test_payByte_24 :
    control (step (atEdge { inState St.pay 0 24 with acc := 0xAB } quiet (byteSlot 0x42))) = some (3, 0, 25, false, .ok) ∧
    values (step (atEdge { inState St.pay 0 24 with acc := 0xAB } quiet (byteSlot 0x42))) =
      some ⟨0, 0xED, 0, [(24, 0x42)]⟩ := by decide

/-- V-43.3. -/
theorem test_payLast :
    control (step (atEdge { inState St.pay 0 25 with acc := 0xAB } quiet (byteSlot 0))) = some (4, 0, 0, false, .ok) ∧
    values (step (atEdge { inState St.pay 0 25 with acc := 0xAB } quiet (byteSlot 0))) = some ⟨0, 0xAB, 0, []⟩ := by decide

/-- V-44.5, its high trailer byte: the accumulator does not move (R183). -/
theorem test_chkHi :
    control (step (atEdge { inState St.chk 0 0 with acc := 0x1A91 } quiet (byteSlot 0x1A))) = some (4, 0, 1, false, .ok) ∧
    values (step (atEdge { inState St.chk 0 0 with acc := 0x1A91 } quiet (byteSlot 0x1A))) =
      some ⟨0, 0x1A91, 0x1A00, []⟩ := by decide

/-- V-44.1. -/
theorem test_chkLo_ok :
    control (step (atEdge { inState St.chk 0 1 with acc := 0xAB } quiet (byteSlot 0xAB))) = some (0, 0, 0, true, .ok) := by decide

/-- V-44.4: the bytes swapped. -/
theorem test_chkLo_swapped :
    control (step (atEdge { inState St.chk 0 1 with acc := 0xAB, trl := 0xAB00 } quiet (byteSlot 0))) =
      some (0, 0, 0, true, .invalidData) ∧
    (nextOf (step (atEdge { inState St.chk 0 1 with acc := 0xAB, trl := 0xAB00 } quiet (byteSlot 0)))).map
      (fun t => (t.outputs.resChkComputed, t.outputs.resChkTrailer)) = some (0xAB, 0xAB00) := by decide

/-! ## Memory, extraction, the transaction function, the host's word -/

theorem test_reset_memory_wf : State.reset.buf.wf := Memory.wf_nil

/-- Writing what an unlisted address reads as removes the entry. -/
theorem test_write_zero_unlists : Memory.writeByte [(3, 7)] 3 0 = [] := by decide

/-- V-45.1. -/
theorem test_parse :
    (parsePayload countingPayload).std.pm1_0 = 0x0001 ∧ (parsePayload countingPayload).atm.pm10_0 = 0x0A0B ∧
    (parsePayload countingPayload).abs.pm10_0 = 0x1617 := by decide

/-- W4: the bytes after the length are not consumed. -/
theorem test_transaction_bad_length :
    transaction (byteResponses [0x42, 0x4D, 0x00, 0x1A, 0x00]) = some (.invalidLength 0x1A, 4) := by decide

/-- V-44.8. -/
theorem test_transaction_bad_sum :
    transaction (byteResponses ([0x42, 0x4D, 0x00, 0x1C] ++ countingPayload ++ [0x01, 0xF1])) =
      some (.invalidData 0x01F0 0x01F1, 32) := by decide

/-- A key placed after reset is the one the very next step runs: LEN.LO with 0x1A (V-42.2, the sum from 0). -/
theorem test_withFetchWord :
    control (step (State.reset.withFetchWord 24 0b0_010_0_00001_0_1_0_00011010)) = some (0, 0, 0, true, .invalidLength) := by
  decide

/-! ## Witnesses: the hypotheses of each statement are met together -/

/-- The register clauses of the invariant on states without a result and with an empty buffer. -/
theorem inv_inState (st : BitVec 3) (m : BitVec 1) (idx : BitVec 5) (h4 : st.toNat ≤ 4)
    (hi : st = St.len ∨ st = St.chk → idx.toNat ≤ 1) (hp : st = St.pay → idx.toNat ≤ 25)
    (he : st = St.idle ∨ st = St.sync → idx = 0) (hm : st ≠ St.sync → m = 0) (len acc trl : Half) (h : List HostPins)
    (p : List SourcePins) :
    { inState st m idx with len := len, acc := acc, trl := trl, host := h, source := p }.Inv :=
  { kind_without_result := fun _ => rfl
    state_not_reserved := h4
    index_in_len_chk := hi
    index_in_pay := hp
    index_elsewhere := he
    match_outside_sync := hm
    result_only_in_idle := nofun
    buffer_canonical := Memory.wf_nil }

theorem witness_DecodeOfEncodeIsTheTransition :
    (Instr.payByte 24 0xFF).wf = true ∧ (Instr.syncMiss0 0x4D).wf = true ∧ (Instr.syncMiss1 0x42).wf = true := by decide

theorem witness_DataByteSelectsARowOnlyInSync :
    (false = true ∨ St.len ≠ St.sync) ∧ (24#5).toNat ≤ 24 := by decide

theorem witness_SourcePinsMeanWhatTheirKindSays :
    let s := atEdge (inState St.pay 0 25) starting (errSlot 0)
    let u := atEdge (inState St.chk 0 1) starting (byteSlot 0xFF)
    (s.reading ∧ s.hostPins.rst = false ∧ s.sourcePins.inValid = true ∧ s.sourcePins.inIsErr = true) ∧
    (u.reading ∧ u.hostPins.rst = false ∧ u.sourcePins.inValid = true ∧ u.sourcePins.inIsErr = false) := by decide

theorem witness_StepRunsTheDecodedTransition :
    decode (atEdge State.reset starting (byteSlot 0x42)).edgeKey (atEdge State.reset starting (byteSlot 0x42)).edgeErr =
      some .idleStart := by decide

theorem witness_ResponsesAreTakenExactlyWhenReady :
    let s := atEdge (inState St.chk 0 0) quiet (byteSlot 1)
    let u := atEdge State.reset quiet (errSlot 0)
    (s.source = [byteSlot 1] ∧ (byteSlot 1).inValid = true ∧ s.outputs.inReady = true ∧ s.hostPins.rst = false ∧
      ∃ t, step s = .next t) ∧
    (u.source = [errSlot 0] ∧ (errSlot 0).inValid = true ∧ u.st = St.idle ∧ ∃ t, step u = .next t) := by
  refine ⟨⟨rfl, rfl, by decide, rfl, ?_⟩, rfl, rfl, rfl, ?_⟩
  · obtain ⟨t, h, -⟩ := exists_next (step (atEdge (inState St.chk 0 0) quiet (byteSlot 1))) (fun _ => true) (by decide)
    exact ⟨t, h⟩
  · obtain ⟨t, h, -⟩ := exists_next (step (atEdge State.reset quiet (errSlot 0))) (fun _ => true) (by decide)
    exact ⟨t, h⟩

theorem witness_ResetEdgeWritesEveryRegister :
    0x1FFFFF#21 &&& 0x100000#21 = 0x100000#21 ∧
    (atEdge (inState St.pay 0 12) ⟨true, true⟩ (byteSlot 0)).hostPins.rst = true := by decide

theorem witness_UnreachableStatesRecoverToIdle :
    (∀ s ∈ [inState 5 0 0, inState 7 1 31, inState St.len 0 2, inState St.chk 0 2, inState St.pay 0 26],
      unreachable s.st s.idx = true ∧ (atEdge s quiet (byteSlot 0)).hostPins.rst = false) := by decide

theorem witness_StartBeginsAFreshTransaction :
    0x000400#21 &&& 0x1E0400#21 = 0x000400#21 ∧
    (atEdge State.reset starting (byteSlot 0)).idle ∧ (atEdge State.reset starting (byteSlot 0)).hostPins.rst = false ∧
    (atEdge State.reset starting (byteSlot 0)).hostPins.start = true := by decide

theorem witness_IdleEdgeHoldsEverything :
    0x0103FF#21 &&& 0x1E0400#21 = 0x000000#21 ∧
    (atEdge State.reset quiet (errSlot 0)).idle ∧ (atEdge State.reset quiet (errSlot 0)).hostPins.rst = false ∧
    (atEdge State.reset quiet (errSlot 0)).hostPins.start = false := by decide

theorem witness_WaitingLosesNothing :
    (0x020000#21 &&& 0x100200#21 = 0x000000#21 ∧ Key.st 0x020000#21 ≠ St.idle ∧
      unreachable (Key.st 0x020000#21) (Key.idx 0x020000#21) = false) ∧
    ((inState St.pay 0 25).reading ∧ noReset [starting, quiet] ∧ [starting, quiet].length = [absentSlot, absentSlot].length ∧
      ∀ w ∈ [absentSlot, absentSlot], w.inValid = false) := by
  refine ⟨by decide, by decide, by decide, rfl, ?_⟩
  intro w hw
  simp only [List.mem_cons, List.not_mem_nil, or_false, or_self] at hw
  rw [hw]
  rfl

theorem witness_HardErrorEndsTheTransaction :
    0x020300#21 &&& 0x100300#21 = 0x000300#21 ∧ Key.st 0x020300#21 ≠ St.idle ∧
      unreachable (Key.st 0x020300#21) (Key.idx 0x020300#21) = false := by decide

theorem witness_FirstMarkerByteIsMatched :
    0x020242#21 &&& 0x1F03FF#21 = 0x020242#21 ∧
    ∃ s t : State, s.Inv ∧ s.m = 0 ∧ step s = .next t ∧ t.m = 1 := by
  refine ⟨by decide, ?_⟩
  obtain ⟨t, ht, hm⟩ := exists_next (step (atEdge (inState St.sync 0 0) quiet (byteSlot 0x42))) (fun t => t.m == 1) (by decide)
  exact ⟨_, t, inv_inState St.sync 0 0 (by decide) (by decide) (by decide) (by decide) (by decide) 0 0 0 _ _, rfl, ht,
    by simpa using hm⟩

theorem witness_FirstMarkerByteIsMatched_in_sync :
    (inState St.sync 1 0).Inv ∧ (inState St.sync 1 0).Work ∧ (inState St.sync 1 0).st = St.sync := by
  refine ⟨inv_inState St.sync 1 0 (by decide) (by decide) (by decide) (by decide) (by decide) 0 0 0 [] [], ?_, rfl⟩
  constructor
  case cleared_in_sync => exact fun _ => ⟨rfl, rfl, rfl, rfl, rfl⟩
  case after_ok => exact nofun
  case after_bad_len => exact nofun
  case after_bad_data => exact nofun
  all_goals
    intro h
    have h1 : St.sync = _ := h
    exact absurd h1 (by decide)

theorem witness_OtherFirstByteIsAMismatch :
    0x02024D#21 &&& 0x1F0300#21 = 0x020200#21 ∧ Key.inData 0x02024D#21 ≠ 0x42 ∧ (inState St.sync 0 0).m = 0 := by decide

theorem witness_OtherSecondByteIsAMismatch :
    let s := atEdge (inState St.sync 1 0) quiet (byteSlot 0x42)
    (0x030242#21 &&& 0x1F0300#21 = 0x030200#21 ∧ Key.inData 0x030242#21 ≠ 0x4D) ∧
    s.st = St.sync ∧ s.m = 1 ∧ s.hostPins.rst = false ∧ s.sourcePins.inValid = true ∧ s.sourcePins.inIsErr = false ∧
      s.sourcePins.inData = 0x42 := by decide

theorem witness_SecondMarkerByteLocks : 0x03024D#21 &&& 0x1F03FF#21 = 0x03024D#21 := by decide

theorem witness_HighLengthByteIsStoredAndSummed : 0x0402FF#21 &&& 0x1EFB00#21 = 0x040200#21 := by decide

theorem witness_LowLengthByteIsCheckedAgainst28 :
    0x040A1C#21 &&& 0x1EFB00#21 = 0x040A00#21 ∧
    (hiByte (inState St.len 0 1).len).toNat * 256 + (0x1C#8).toNat = 28 ∧
    (hiByte { inState St.len 0 1 with len := 0x1C00 }.len).toNat * 256 + (0#8).toNat ≠ 28 := by decide

theorem witness_PayloadByteIsStoredAndSummed :
    (0x06C242#21 &&& 0x1E0300#21 = 0x060200#21 ∧ (Key.idx 0x06C242#21).toNat ≤ 24) ∧
    (24#5).toNat ≤ 24 ∧ (inState St.pay 0 24).buf.wf := ⟨by decide, by decide, Memory.wf_nil⟩

theorem witness_PayloadIndexOutsideTheBufferFaults : 26 ≤ (26#5).toNat ∧ ¬ 26 ≤ (25#5).toNat := by decide

theorem witness_LastPayloadByteLeadsToTheTrailer :
    0x06CA00#21 &&& 0x1EFB00#21 = 0x06CA00#21 ∧ (inState St.pay 0 25).buf.wf := ⟨by decide, Memory.wf_nil⟩

theorem witness_HighTrailerByteIsNotSummed : 0x0802FF#21 &&& 0x1EFB00#21 = 0x080200#21 := by decide

theorem witness_LowTrailerByteDecidesTheResult :
    0x080AAB#21 &&& 0x1EFB00#21 = 0x080A00#21 ∧
    (hiByte { inState St.chk 0 1 with acc := 0xAB }.trl).toNat * 256 + (0xAB#8).toNat = (0xAB#16).toNat ∧
    (hiByte { inState St.chk 0 1 with acc := 0xAB, trl := 0xAB00 }.trl).toNat * 256 + (0#8).toNat ≠ (0xAB#16).toNat := by decide

/-- W3, and V-44.1. -/
theorem witness_LowTrailerByteDecidesTheResult_consumption :
    transaction (byteResponses ([0x42, 0x4D, 0x00, 0x1C] ++ zeroPayload ++ [0x00, 0x00])) =
      some (.invalidData 0xAB 0x0000, 32) ∧
    transaction (byteResponses ([0x42, 0x4D, 0x00, 0x1C] ++ zeroPayload ++ [0x00, 0xAB])) =
      some (.ok Measurement.zero, 32) := by decide

theorem witness_RegistersAfterReset :
    let s := { State.reset with len := 0x1A, acc := 7, buf := [(3, 9)] }
    s.idle ∧ s.rv = false ∧ s.rk = .ok := by decide

theorem witness_ResultKindsHaveTheirCodes : ResKind.serial.code = ResKind.serial.code := rfl

theorem witness_FieldsSitAtTheirOffsets :
    let s := { State.reset with rv := true, buf := [(0, 3), (1, 0xE8), (23, 1)] }
    s.rv = true ∧ s.rk = .ok := by decide

theorem witness_ReservedBytesAreShownNowhere :
    Memory.wf [(0, 3), (24, 0x97)] ∧ (24 = 24 ∨ 24 = 25) ∧ (25 = 24 ∨ 25 = 25) := by decide

/-- For each register a state that meets the invariant and an edge that changes it. -/
theorem witness_RegistersChangeOnlyByTheirWriters :
    (∃ s t : State, s.Inv ∧ step s = .next t ∧ t.st ≠ s.st ∧ t.m ≠ s.m ∧ t.acc ≠ s.acc) ∧
    (∃ s t : State, s.Inv ∧ step s = .next t ∧ t.idx ≠ s.idx ∧ t.len ≠ s.len) ∧
    (∃ s t : State, s.Inv ∧ step s = .next t ∧ t.buf ≠ s.buf) ∧
    (∃ s t : State, s.Inv ∧ step s = .next t ∧ t.trl ≠ s.trl) ∧
    (∃ s t : State, s.Inv ∧ step s = .next t ∧ t.serr ≠ s.serr ∧ t.rv ≠ s.rv ∧ t.rk ≠ s.rk) := by
  refine ⟨?_, ?_, ?_, ?_, ?_⟩
  · obtain ⟨t, ht, hp⟩ := exists_next (step (atEdge (inState St.sync 1 0) quiet (byteSlot 0x4D)))
      (fun t => t.st == 2 && t.m == 0 && t.acc == 0x8F) (by decide)
    simp only [Bool.and_eq_true, beq_iff_eq] at hp
    refine ⟨_, t, inv_inState St.sync 1 0 (by decide) (by decide) (by decide) (by decide) (by decide) 0 0 0 _ _, ht, ?_, ?_, ?_⟩
    · rw [hp.1.1]; decide
    · rw [hp.1.2]; decide
    · rw [hp.2]; decide
  · obtain ⟨t, ht, hp⟩ := exists_next (step (atEdge (inState St.len 0 0) quiet (byteSlot 1)))
      (fun t => t.idx == 1 && t.len == 0x100) (by decide)
    simp only [Bool.and_eq_true, beq_iff_eq] at hp
    refine ⟨_, t, inv_inState St.len 0 0 (by decide) (by decide) (by decide) (by decide) (by decide) 0 0 0 _ _, ht, ?_, ?_⟩
    · rw [hp.1]; decide
    · rw [hp.2]; decide
  · obtain ⟨t, ht, hp⟩ := exists_next (step (atEdge (inState St.pay 0 25) quiet (byteSlot 1)))
      (fun t => t.buf == [(25, 1)]) (by decide)
    simp only [beq_iff_eq] at hp
    refine ⟨_, t, inv_inState St.pay 0 25 (by decide) (by decide) (by decide) (by decide) (by decide) 0 0 0 _ _, ht, ?_⟩
    rw [hp]; decide
  · obtain ⟨t, ht, hp⟩ := exists_next (step (atEdge (inState St.chk 0 0) quiet (byteSlot 1)))
      (fun t => t.trl == 0x100) (by decide)
    simp only [beq_iff_eq] at hp
    refine ⟨_, t, inv_inState St.chk 0 0 (by decide) (by decide) (by decide) (by decide) (by decide) 0 0 0 _ _, ht, ?_⟩
    rw [hp]; decide
  · refine ⟨_, _, inv_inState St.sync 0 0 (by decide) (by decide) (by decide) (by decide) (by decide) 0 0 0 [quiet]
      [errSlot 1], rfl, ?_, by decide, by decide⟩
    show (1 : SerialErr) ≠ 0
    simp

/-- An end of each kind, and an abandoned transaction. -/
theorem witness_TransactionsEndOnlyByTheirRules :
    ∀ s ∈ [atEdge (inState St.len 0 1) quiet (byteSlot 0x1A), atEdge (inState St.chk 0 1) quiet (byteSlot 0),
        atEdge { inState St.chk 0 1 with acc := 0xAB } quiet (byteSlot 0), atEdge (inState St.sync 1 0) quiet (errSlot 1),
        atEdge (inState St.pay 0 12) ⟨true, false⟩ (byteSlot 0), atEdge (inState St.pay 0 26) quiet (byteSlot 0)],
      s.busy = true ∧ s.rv = false ∧ ∃ t, step s = .next t ∧ t.busy = false := by
  intro s hs
  simp only [List.mem_cons, List.not_mem_nil, or_false] at hs
  have key : ∀ u : State, u.busy = true → u.rv = false → (nextOf (step u)).any (fun t => !t.busy) = true →
      u.busy = true ∧ u.rv = false ∧ ∃ t, step u = .next t ∧ t.busy = false := by
    intro u h1 h2 h3
    obtain ⟨t, ht, hb⟩ := exists_next _ _ h3
    exact ⟨h1, h2, t, ht, by simpa using hb⟩
  rcases hs with rfl | rfl | rfl | rfl | rfl | rfl <;> exact key _ (by decide) (by decide) (by decide)

theorem witness_StartIsIgnoredWhileBusy :
    (inState St.chk 0 1).busy = true ∧ (inState St.sync 0 0).busy = true ∧
    ∃ s t : State, s.reading ∧ s.hostPins.rst = false ∧ step s = .next t := by
  refine ⟨by decide, by decide, ?_⟩
  obtain ⟨t, ht, -⟩ := exists_next (step (atEdge (inState St.pay 0 25) starting (byteSlot 1))) (fun _ => true) (by decide)
  exact ⟨_, t, by decide, rfl, ht⟩

theorem witness_EveryEdgeKeepsTheInvariant : ∃ s t : State, s.Inv ∧ step s = .next t := by
  obtain ⟨t, ht, -⟩ := exists_next (step (atEdge (inState St.pay 0 25) quiet (byteSlot 1))) (fun _ => true) (by decide)
  exact ⟨_, t, inv_inState St.pay 0 25 (by decide) (by decide) (by decide) (by decide) (by decide) 0 0 0 _ _, ht⟩

/-- CHK after 26 zero bytes, with a given trailer register. -/
def checking (trl : Half) (idx : BitVec 5) : State :=
  { inState St.chk 0 idx with len := 28, acc := 0xAB, trl := trl, host := [quiet], source := [byteSlot 0xAB] }

theorem checking_inv (trl : Half) : (checking trl 1).Inv :=
  inv_inState St.chk 0 1 (by decide) (by decide) (by decide) (by decide) (by decide) _ _ _ _ _

theorem checking_work (trl : Half) : (checking trl 1).Work := by
  have hc : (checking trl 1).buf.checksum 26 = 0xAB := (by decide : Memory.checksum [] 26 = 0xAB)
  constructor
  case in_chk => exact fun _ => ⟨rfl, hc.symm⟩
  case after_ok => exact nofun
  case after_bad_len => exact nofun
  case after_bad_data => exact nofun
  all_goals
    intro h
    have h4 : St.chk = _ := h
    exact absurd h4 (by decide)

theorem witness_EveryEdgeKeepsTheAccumulatorLaw : ∃ s t : State, s.Inv ∧ s.Work ∧ step s = .next t := by
  obtain ⟨t, ht, -⟩ := exists_next (step (checking 0 1)) (fun _ => true) (by decide)
  exact ⟨_, t, checking_inv 0, checking_work 0, ht⟩

/-- Trailers one below and one above the range of R182. -/
theorem witness_SumAtTheComparisonIsInRange :
    (∀ trl, (checking trl 1).Inv ∧ (checking trl 1).Work ∧ (checking trl 1).st = St.chk) ∧
    (pair (hiByte (checking 0 1).trl) 0xAA).toNat < 0x00AB ∧ 0x1A91 < (pair (hiByte (checking 0x1A00 1).trl) 0x92).toNat :=
  ⟨fun trl => ⟨checking_inv trl, checking_work trl, rfl⟩, by decide, by decide⟩

theorem witness_ResultIsHeldUntilStartOrReset :
    (State.reset.idle ∧ noCommand [quiet, quiet]) ∧
    ((atEdge State.reset starting absentSlot).idle ∧ (atEdge State.reset starting absentSlot).hostPins.start = true) ∧
    (atEdge State.reset ⟨true, false⟩ absentSlot).hostPins.rst = true := by decide

theorem witness_NothingIsRememberedAcrossTransactions :
    let s := atEdge State.reset starting (byteSlot 0x42)
    let t := atEdge { State.reset with len := 0x1A, acc := 9, buf := [(1, 1)], rv := true, rk := .invalidLength } starting
      (byteSlot 0x42)
    s.idle ∧ t.idle ∧ s.host = t.host ∧ s.source = t.source ∧ s.hostFree = t.hostFree ∧ s.sourceFree = t.sourceFree ∧
      s.hostPins.rst = false ∧ s.hostPins.start = true := ⟨rfl, rfl, rfl, rfl, rfl, rfl, rfl, rfl⟩

theorem witness_ScanLocksAfterOddRunsOnly :
    let s := atEdge (inState St.sync 1 0) quiet (byteSlot 0x4D)
    (s.st = St.sync ∧ s.accepts = true ∧ s.sourcePins.inIsErr = false) ∧
    ((inState St.sync 0 0).st = St.sync ∧ (inState St.sync 0 0).m = 0 ∧ noReset [quiet] ∧ [quiet].length = 0 + 1 ∧
      noReset [quiet, starting, quiet, quiet] ∧ [quiet, starting, quiet, quiet].length = 3 + 1) := by decide

theorem witness_AnyMarkerPairLocksTheScan :
    (inState St.sync 0 0).st = St.sync ∧ (inState St.sync 0 0).m = 0 ∧ noReset [quiet, starting] := by decide

/-- A bad length (W4) between waits, and a stream with no end. -/
theorem witness_EdgesComputeTheTransactionFunction :
    let slots := [absentSlot, byteSlot 0x42, byteSlot 0x4D, absentSlot, byteSlot 0x00, byteSlot 0x1A, byteSlot 0x00]
    let s := { State.reset with source := slots }
    s.idle ∧ noReset (List.replicate 7 quiet) ∧ s.source.length ≤ (List.replicate 7 quiet).length ∧
      transaction (responses s.source) = some (.invalidLength 0x1A, 4) := by decide

/-- One end of each kind (W2, W4, V-44.2, V-60.1). -/
theorem witness_TransactionsConsumeExactlyWhatTheyRead (e : SerialErr) :
    transaction (byteResponses (frameBytes zeroPayload)) = some (.ok Measurement.zero, 32) ∧
    transaction (byteResponses ([0x42, 0x4D, 0x00, 0x1C] ++ zeroPayload ++ [0x00, 0x00])) =
      some (.invalidData 0xAB 0x0000, 32) ∧
    transaction (byteResponses [0x42, 0x4D, 0x00, 0x1A]) = some (.invalidLength 0x1A, 4) ∧
    transaction [.err e] = some (.serial e, 1) ∧ zeroPayload.length = 26 :=
  ⟨by decide, by decide, by decide, rfl, rfl⟩

theorem witness_TransactionWithoutAnEndStaysBusy :
    let s := { State.reset with source := [byteSlot 0x42] }
    s.idle ∧ noReset [quiet] ∧ s.source.length ≤ [quiet].length ∧ transaction (responses s.source) = none ∧ 0 < 2 ∧
      2 ≤ s.sourceIfHeld.length + 1 := by decide

/-- P1's noise, the empty noise, and noise that masks the frame. -/
theorem witness_FrameAfterNoiseIsDecodedExactlyWhenUnmasked :
    zeroPayload.length = 26 ∧ (0x42 : Byte) ∉ [0x11, 0x22, 0x4D] ∧ (0x42 : Byte) ∉ [] ∧
    scanFrom false 0 (byteResponses [0x00, 0x42]) = .short ∧ trailingRun [0x00, 0x42] % 2 = 1 := by decide

theorem witness_OkResultsComeFromWellFormedFrames :
    transaction (byteResponses (frameBytes zeroPayload)) = some (.ok Measurement.zero, 32) := by decide

/-- Noise 42 42 (V-41). -/
theorem witness_RetryOnAFreshFrameSucceeds :
    let slots := ([0x42, 0x42] ++ frameBytes zeroPayload).map byteSlot
    let s := { State.reset with source := slots, rv := true, rk := .invalidData }
    s.idle ∧ noReset (List.replicate 34 quiet) ∧ s.source.length ≤ (List.replicate 34 quiet).length ∧
      zeroPayload.length = 26 ∧
      responses s.source = byteResponses [0x42, 0x42] ++ byteResponses (frameBytes zeroPayload) ++ [] ∧
      scanFrom false 0 (byteResponses [0x42, 0x42]) = .short ∧ trailingRun [0x42, 0x42] % 2 = 0 := by decide

end Sys2Proof.Tests
end

section
/-! One edge, said once: the row the table chooses (R74 to R76), and the next state with the guard of its row. -/

namespace Sys2Proof.Machine

/-! ## The states that R84 does not recover from -/

/-- A state that R84 does not recover from has one of the five codes of R21. -/
theorem code_of_reachable (st : BitVec 3) (idx : BitVec 5) (h : unreachable st idx = false) :
    st = St.idle ∨ st = St.sync ∨ st = St.len ∨ st = St.pay ∨ st = St.chk := by
  revert st idx; decide

/-- In LEN and CHK an index that R84 does not recover from is 0 or 1. -/
theorem index_of_reachable (st : BitVec 3) (idx : BitVec 5) (h : unreachable st idx = false)
    (hst : st = St.len ∨ st = St.chk) : idx = 0 ∨ idx = 1 := by
  revert st idx; decide

/-- In PAY an index that R84 does not recover from is 25 or one that R160 stores at. -/
theorem index_in_pay_of_reachable (st : BitVec 3) (idx : BitVec 5) (h : unreachable st idx = false)
    (hst : st = St.pay) (hlast : idx ≠ 25) : idx.toNat ≤ 24 := by
  revert st idx; decide

/-! ## The choice of the row -/

/-- The table is read row by row (R74): the first row if it fits, else the rest. -/
theorem firstRow_cons (r : Row) (rs : List Row) (k : Key) (e : SerialErr) :
    ((r :: rs).find? (·.fits k)).map (·.operands k e) =
      if r.fits k then some (r.operands k e) else (rs.find? (·.fits k)).map (·.operands k e) := by
  rw [List.find?_cons]
  split <;> simp [*]

/-- On a packed key the table chooses what the prose of R76 chooses. -/
theorem decode_pack (rst : Bool) (st : BitVec 3) (m : BitVec 1) (idx : BitVec 5) (start inValid inIsErr : Bool)
    (inData : Byte) (e : SerialErr) :
    decode (Key.pack rst st m idx start inValid inIsErr inData) e =
      some (transitionFor rst st m idx start inValid inIsErr inData e) := by
  simp only [decode, selectedRow, rows, firstRow_cons]
  simp only [List.find?_nil, Option.map_none, Row.fits, illegalPatterns_fit, List.any_cons, List.any_nil, Bool.or_false,
    Pattern.fits_reset, Pattern.fits_idle_start, Pattern.fits_idle_hold, Pattern.fits_busy_serr, Pattern.fits_busy_wait,
    Pattern.fits_sync_hit0, Pattern.fits_sync_miss0, Pattern.fits_sync_hit1, Pattern.fits_sync_miss1,
    Pattern.fits_len_hi, Pattern.fits_len_lo, Pattern.fits_pay_last, Pattern.fits_pay_byte, Pattern.fits_chk_hi,
    Pattern.fits_chk_lo, Key.inData_pack, Key.idx_pack]
  unfold transitionFor
  cases rst with
  | true => simp
  | false =>
    cases hu : unreachable st idx with
    | true => simp
    | false =>
      rcases code_of_reachable st idx hu with rfl | hbusy
      · cases start <;> simp
      · have hidle : st ≠ 0#3 := by rcases hbusy with rfl | rfl | rfl | rfl <;> decide
        cases inValid with
        | false => simp [hidle]
        | true =>
          cases inIsErr with
          | true => simp [hidle]
          | false =>
            rcases hbusy with rfl | rfl | rfl | rfl
            · rcases BitVec.eq_zero_or_eq_one m with rfl | rfl <;> simp [apply_ite some]
            · rcases index_of_reachable _ idx hu (.inl rfl) with rfl | rfl <;> simp
            · simp [apply_ite some]
            · rcases index_of_reachable _ idx hu (.inr rfl) with rfl | rfl <;> simp

/-! ## What an edge can do -/

/-- The coming edge accepts the byte `b` in the state with code `c` (R31). -/
structure State.Reads (s : State) (c : BitVec 3) (b : Byte) : Prop where
  accepts : s.accepts = true
  noError : s.sourcePins.inIsErr = false
  data    : s.sourcePins.inData = b
  code    : s.st = c

/-- The next states of one edge, row by row: the guard of the row and the registers it writes. LEN.LO and CHK.LO have one
case for each outcome of their comparison. -/
inductive State.Edge (s : State) : State → Prop
  | reset (hrst : s.hostPins.rst = true) : Edge s s.passEdge.resetRegisters
  | illegal (hrst : s.hostPins.rst = false) (hu : unreachable s.st s.idx = true) : Edge s s.passEdge.recover
  | idleStart (hrst : s.hostPins.rst = false) (hst : s.st = St.idle) (hstart : s.hostPins.start = true) :
      Edge s s.passEdge.startTransaction
  | idleHold (hrst : s.hostPins.rst = false) (hst : s.st = St.idle) (hstart : s.hostPins.start = false) :
      Edge s s.passEdge
  | busyWait (hrst : s.hostPins.rst = false) (hread : s.reading) (hvalid : s.sourcePins.inValid = false) :
      Edge s s.passEdge
  | busySerr (hacc : s.accepts = true) (hread : s.reading) (herr : s.sourcePins.inIsErr = true) :
      Edge s (s.passEdge.raiseSerial s.sourcePins.inErr)
  | syncHit0 (h : s.Reads St.sync Config.marker0) (hm : s.m = 0) : Edge s { s.passEdge with m := 1 }
  | syncMiss0 {b : Byte} (h : s.Reads St.sync b) (hm : s.m = 0) (hb : b ≠ Config.marker0) :
      Edge s { s.passEdge with m := 0 }
  | syncHit1 (h : s.Reads St.sync Config.marker1) (hm : s.m = 1) :
      Edge s { s.passEdge with st := St.len, idx := 0, m := 0, acc := markerSum }
  | syncMiss1 {b : Byte} (h : s.Reads St.sync b) (hm : s.m = 1) (hb : b ≠ Config.marker1) :
      Edge s { s.passEdge with m := 0 }
  | lenHi {b : Byte} (h : s.Reads St.len b) (hidx : s.idx = 0) :
      Edge s { s.passEdge.accumulate b with len := setHi s.passEdge.len b, idx := 1 }
  | lenLoOk {b : Byte} (h : s.Reads St.len b) (hidx : s.idx = 1) (hlen : setLo s.len b = 28) :
      Edge s { s.passEdge.accumulate b with len := setLo s.passEdge.len b, st := St.pay, idx := 0 }
  | lenLoBad {b : Byte} (h : s.Reads St.len b) (hidx : s.idx = 1) (hlen : setLo s.len b ≠ 28) :
      Edge s ({ s.passEdge.accumulate b with len := setLo s.passEdge.len b }.endTransaction .invalidLength)
  | payByte {b : Byte} (h : s.Reads St.pay b) (hidx : s.idx.toNat ≤ 24) :
      Edge s { s.passEdge.accumulate b with buf := s.passEdge.buf.writeByte s.idx.toNat b, idx := s.idx + 1 }
  | payLast {b : Byte} (h : s.Reads St.pay b) (hidx : s.idx = 25) :
      Edge s { s.passEdge.accumulate b with buf := s.passEdge.buf.writeByte 25 b, st := St.chk, idx := 0 }
  | chkHi {b : Byte} (h : s.Reads St.chk b) (hidx : s.idx = 0) :
      Edge s { s.passEdge with trl := setHi s.passEdge.trl b, idx := 1 }
  | chkLoOk {b : Byte} (h : s.Reads St.chk b) (hidx : s.idx = 1) (hsum : setLo s.trl b = s.acc) :
      Edge s ({ s.passEdge with trl := setLo s.passEdge.trl b }.endTransaction .ok)
  | chkLoBad {b : Byte} (h : s.Reads St.chk b) (hidx : s.idx = 1) (hsum : setLo s.trl b ≠ s.acc) :
      Edge s ({ s.passEdge with trl := setLo s.passEdge.trl b }.endTransaction .invalidData)

/-- A response presented to a reading core without a reset is accepted (R31, R34). -/
theorem State.accepts_of_reading (s : State) (hrst : s.hostPins.rst = false) (hread : s.reading)
    (hvalid : s.sourcePins.inValid = true) : s.accepts = true := by
  simp [State.accepts, State.inReady, hrst, hvalid, hread.1]

/-- A core that accepts a response is busy (R34). -/
theorem State.busy_of_accepts (s : State) (h : s.accepts = true) : s.busy = true := by
  simp only [State.accepts, Bool.and_eq_true] at h
  exact h.2

/-- An edge runs the transition that R76 chooses for its pins and registers. -/
theorem step_runs_transitionFor (s t : State) (h : step s = .next t) :
    exec (transitionFor s.hostPins.rst s.st s.m s.idx s.hostPins.start s.sourcePins.inValid s.sourcePins.inIsErr
      s.sourcePins.inData s.sourcePins.inErr) s.passEdge = .next t := by
  obtain ⟨i, hi, hexec⟩ := step_is_exec s t h
  rw [State.edgeKey, State.edgeErr, decode_pack] at hi
  rwa [Option.some.inj hi]

/-- A byte accepted in SYNC (R120 to R123). -/
theorem edge_of_sync_byte (s t : State) (b : Byte) (h : s.Reads St.sync b)
    (hexec : exec (if s.m = 0#1 then if b = Config.marker0 then .syncHit0 else .syncMiss0 b
      else if b = Config.marker1 then .syncHit1 else .syncMiss1 b) s.passEdge = .next t) : s.Edge t := by
  split_ifs at hexec with hm hb hb
  · exact Host.Outcome.next.inj hexec ▸ .syncHit0 (hb ▸ h) hm
  · exact Host.Outcome.next.inj hexec ▸ .syncMiss0 h hm hb
  · exact Host.Outcome.next.inj hexec ▸ .syncHit1 (hb ▸ h) ((BitVec.eq_zero_or_eq_one s.m).resolve_left hm)
  · exact Host.Outcome.next.inj hexec ▸ .syncMiss1 h ((BitVec.eq_zero_or_eq_one s.m).resolve_left hm) hb

/-- A byte accepted in LEN (R140, R141). -/
theorem edge_of_len_byte (s t : State) (b : Byte) (h : s.Reads St.len b) (hu : unreachable s.st s.idx = false)
    (hexec : exec (if s.idx = 0#5 then .lenHi b else .lenLo b) s.passEdge = .next t) : s.Edge t := by
  rcases index_of_reachable _ _ hu (.inl h.code) with hidx | hidx <;> rw [hidx] at hexec
  · exact Host.Outcome.next.inj hexec ▸ .lenHi h hidx
  · rcases execLenLo_cases b s.passEdge with ⟨hlen, ho⟩ | ⟨hlen, ho⟩ <;> rw [State.passEdge_len] at hlen
    · exact Host.Outcome.next.inj (ho.symm.trans hexec) ▸ .lenLoOk h hidx hlen
    · exact Host.Outcome.next.inj (ho.symm.trans hexec) ▸ .lenLoBad h hidx hlen

/-- A byte accepted in PAY (R160, R161). -/
theorem edge_of_pay_byte (s t : State) (b : Byte) (h : s.Reads St.pay b) (hu : unreachable s.st s.idx = false)
    (hexec : exec (if s.idx = 25#5 then .payLast b else .payByte s.idx b) s.passEdge = .next t) : s.Edge t := by
  split_ifs at hexec with hidx
  · exact Host.Outcome.next.inj hexec ▸ .payLast h hidx
  · have hle : s.idx.toNat ≤ 24 := index_in_pay_of_reachable _ _ hu h.code hidx
    simp only [exec, execPayByte, State.storeBuf_inside _ _ _ (show s.idx.toNat < 26 by omega)] at hexec
    exact Host.Outcome.next.inj hexec ▸ .payByte h hle

/-- A byte accepted in CHK (R183, R184). -/
theorem edge_of_chk_byte (s t : State) (b : Byte) (h : s.Reads St.chk b) (hu : unreachable s.st s.idx = false)
    (hexec : exec (if s.idx = 0#5 then .chkHi b else .chkLo b) s.passEdge = .next t) : s.Edge t := by
  rcases index_of_reachable _ _ hu (.inr h.code) with hidx | hidx <;> rw [hidx] at hexec
  · exact Host.Outcome.next.inj hexec ▸ .chkHi h hidx
  · rcases execChkLo_cases b s.passEdge with ⟨hsum, ho⟩ | ⟨hsum, ho⟩ <;>
      rw [State.passEdge_trl, State.passEdge_acc] at hsum
    · exact Host.Outcome.next.inj (ho.symm.trans hexec) ▸ .chkLoOk h hidx hsum
    · exact Host.Outcome.next.inj (ho.symm.trans hexec) ▸ .chkLoBad h hidx hsum

/-- Every next state is one of the cases of `State.Edge`. -/
theorem edge_of_step (s t : State) (h : step s = .next t) : s.Edge t := by
  have hexec := step_runs_transitionFor s t h
  unfold transitionFor at hexec
  by_cases hrst : s.hostPins.rst = true
  · rw [if_pos hrst] at hexec
    exact Host.Outcome.next.inj hexec ▸ .reset hrst
  rw [if_neg hrst] at hexec
  rw [Bool.not_eq_true] at hrst
  by_cases hu : unreachable s.st s.idx = true
  · rw [if_pos hu] at hexec
    exact Host.Outcome.next.inj hexec ▸ .illegal hrst hu
  rw [if_neg hu] at hexec
  rw [Bool.not_eq_true] at hu
  by_cases hst : s.st = St.idle
  · rw [if_pos hst] at hexec
    cases hstart : s.hostPins.start with
    | true => rw [hstart] at hexec; exact Host.Outcome.next.inj hexec ▸ .idleStart hrst hst hstart
    | false => rw [hstart] at hexec; exact Host.Outcome.next.inj hexec ▸ .idleHold hrst hst hstart
  rw [if_neg hst] at hexec
  have hread : s.reading := s.reading_iff.2 ⟨hst, hu⟩
  cases hvalid : s.sourcePins.inValid with
  | false => rw [hvalid] at hexec; exact Host.Outcome.next.inj hexec ▸ .busyWait hrst hread hvalid
  | true =>
    have hacc := s.accepts_of_reading hrst hread hvalid
    cases herr : s.sourcePins.inIsErr with
    | true => rw [hvalid, herr] at hexec; exact Host.Outcome.next.inj hexec ▸ .busySerr hacc hread herr
    | false =>
      have hreads : s.Reads s.st s.sourcePins.inData := ⟨hacc, herr, rfl, rfl⟩
      rw [hvalid, herr] at hexec
      rcases (code_of_reachable _ _ hu).resolve_left hst with hc | hc | hc | hc
      · exact edge_of_sync_byte s t _ (hc ▸ hreads) (by simpa [hc] using hexec)
      · exact edge_of_len_byte s t _ (hc ▸ hreads) hu (by simpa [hc] using hexec)
      · exact edge_of_pay_byte s t _ (hc ▸ hreads) hu (by simpa [hc] using hexec)
      · exact edge_of_chk_byte s t _ (hc ▸ hreads) hu (by simpa [hc] using hexec)

end Sys2Proof.Machine
end

section
/-! The invariant of R30: it holds after reset, and every edge keeps it. -/

namespace Sys2Proof.Machine

/-- A busy state that meets the invariant holds no result (R29, R30). -/
theorem State.Inv.no_result {s : State} (hs : s.Inv) (hbusy : s.busy = true) : s.rv = false ∧ s.rk = .ok := by
  have hrv : s.rv = false := by
    by_contra hrv
    have hidle : s.st = St.idle := hs.result_only_in_idle (by simpa using hrv)
    simp [State.busy_of_idle s hidle] at hbusy
  exact ⟨hrv, hs.kind_without_result hrv⟩

/-- Outside SYNC an edge that accepts a byte finds the match counter at 0 (R22, R30). -/
theorem State.Reads.match_zero {s : State} {c : BitVec 3} {b : Byte} (h : s.Reads c b) (hs : s.Inv) (hc : c ≠ St.sync) :
    s.m = 0 := hs.match_outside_sync (h.code ▸ hc)

/-- R84 recovers from no state that meets the invariant. -/
theorem State.Inv.reachable {s : State} (hs : s.Inv) : unreachable s.st s.idx = false := by
  have key : ∀ (st : BitVec 3) (idx : BitVec 5), st.toNat ≤ 4 → (st = St.len ∨ st = St.chk → idx.toNat ≤ 1) →
      (st = St.pay → idx.toNat ≤ 25) → unreachable st idx = false := by decide
  exact key _ _ hs.state_not_reserved hs.index_in_len_chk hs.index_in_pay

/-- An idle state meets the invariant when its sequencing registers are 0, its kind is OK without a result, and its buffer
is canonical. -/
theorem State.inv_of_idle (s : State) (hst : s.idle) (hidx : s.idx = 0) (hm : s.m = 0)
    (hkind : s.rv = false → s.rk = .ok) (hbuf : s.buf.wf) : s.Inv where
  kind_without_result := hkind
  state_not_reserved := by rw [hst]; decide
  index_in_len_chk := by simp [hidx]
  index_in_pay := by simp [hidx]
  index_elsewhere := fun _ => hidx
  match_outside_sync := fun _ => hm
  result_only_in_idle := fun _ => hst
  buffer_canonical := hbuf

/-- The sequencing registers of a busy state fit its code (R22, R23). -/
inductive State.Sequenced (s : State) : Prop
  | sync (hst : s.st = St.sync) (hidx : s.idx = 0)
  | len (hst : s.st = St.len) (hm : s.m = 0) (hidx : s.idx.toNat ≤ 1)
  | pay (hst : s.st = St.pay) (hm : s.m = 0) (hidx : s.idx.toNat ≤ 25)
  | chk (hst : s.st = St.chk) (hm : s.m = 0) (hidx : s.idx.toNat ≤ 1)

/-- A busy state meets the invariant when its sequencing registers fit, it holds no result, and its buffer is canonical. -/
theorem State.inv_of_busy (s : State) (hseq : s.Sequenced) (hres : s.rv = false ∧ s.rk = .ok) (hbuf : s.buf.wf) :
    s.Inv := by
  obtain ⟨hrv, hrk⟩ := hres
  cases hseq <;> refine ⟨fun _ => hrk, ?_, ?_, ?_, ?_, ?_, by simp [hrv], hbuf⟩ <;> simp [*]

/-! What the shared operations need for the invariant -/

theorem State.inv_reset : State.reset.Inv :=
  State.inv_of_idle _ rfl rfl rfl (fun _ => rfl) Memory.wf_nil

theorem State.inv_resetRegisters (s : State) : s.resetRegisters.Inv :=
  State.inv_of_idle _ rfl rfl rfl (fun _ => rfl) Memory.wf_nil

theorem State.inv_recover (s : State) (hbuf : s.buf.wf) : s.recover.Inv :=
  State.inv_of_idle _ rfl rfl rfl (fun _ => rfl) hbuf

theorem State.inv_startTransaction (s : State) : s.startTransaction.Inv :=
  State.inv_of_busy _ (.sync rfl rfl) ⟨rfl, rfl⟩ Memory.wf_nil

theorem State.inv_endTransaction (s : State) (k : ResKind) (hbuf : s.buf.wf) : (s.endTransaction k).Inv :=
  State.inv_of_idle _ rfl rfl rfl nofun hbuf

theorem State.inv_passEdge (s : State) (hs : s.Inv) : s.passEdge.Inv := by
  obtain ⟨h1, h2, h3, h4, h5, h6, h7, h8⟩ := hs
  constructor <;> simpa

/-- Every edge keeps the invariant. -/
theorem State.Edge.keeps_inv {s t : State} (h : s.Edge t) (hs : s.Inv) : t.Inv := by
  have hbuf : s.passEdge.buf.wf := by simpa using hs.buffer_canonical
  have hres {c b} (h : s.Reads c b) : s.passEdge.rv = false ∧ s.passEdge.rk = .ok := by
    simpa using hs.no_result (s.busy_of_accepts h.accepts)
  have hst {c b} (h : s.Reads c b) : s.passEdge.st = c := by simpa using h.code
  have hm {c b} (h : s.Reads c b) (hc : c ≠ St.sync) : s.passEdge.m = 0 := by simpa using h.match_zero hs hc
  have hidx {b} (h : s.Reads St.sync b) : s.passEdge.idx = 0 := by simpa using hs.index_elsewhere (.inr h.code)
  cases h with
  | reset => exact State.inv_resetRegisters _
  | illegal => exact State.inv_recover _ hbuf
  | idleStart => exact State.inv_startTransaction _
  | idleHold => exact s.inv_passEdge hs
  | busyWait => exact s.inv_passEdge hs
  | busySerr => exact State.inv_endTransaction _ _ hbuf
  | syncHit0 h => exact State.inv_of_busy _ (.sync (hst h) (hidx h)) (hres h) hbuf
  | syncMiss0 h => exact State.inv_of_busy _ (.sync (hst h) (hidx h)) (hres h) hbuf
  | syncHit1 h => exact State.inv_of_busy _ (.len rfl rfl (by simp)) (hres h) hbuf
  | syncMiss1 h => exact State.inv_of_busy _ (.sync (hst h) (hidx h)) (hres h) hbuf
  | lenHi h => exact State.inv_of_busy _ (.len (hst h) (hm h (by decide)) (by simp)) (hres h) hbuf
  | lenLoOk h => exact State.inv_of_busy _ (.pay rfl (hm h (by decide)) (by simp)) (hres h) hbuf
  | lenLoBad => exact State.inv_endTransaction _ _ hbuf
  | payByte h hle =>
    have hnext : (s.idx + 1).toNat ≤ 25 := by bv_omega
    exact State.inv_of_busy _ (.pay (hst h) (hm h (by decide)) hnext) (hres h)
      (Memory.wf_writeByte _ hbuf _ _ (Nat.lt_of_le_of_lt hle (by decide)))
  | payLast h =>
    exact State.inv_of_busy _ (.chk rfl (hm h (by decide)) (by simp)) (hres h)
      (Memory.wf_writeByte _ hbuf _ _ (by decide))
  | chkHi h => exact State.inv_of_busy _ (.chk (hst h) (hm h (by decide)) (by simp)) (hres h) hbuf
  | chkLoOk => exact State.inv_endTransaction _ _ hbuf
  | chkLoBad => exact State.inv_endTransaction _ _ hbuf

/-- Settles O37: the next state is one of the cases of `State.Edge`, and each keeps the invariant. -/
theorem everyEdgeKeepsTheInvariant : Obligations.EveryEdgeKeepsTheInvariant :=
  fun s t hs h => (edge_of_step s t h).keeps_inv hs

/-- Settles O36: the registers after reset are those of an idle state without a result (R41). -/
theorem resetStateMeetsTheInvariant : Obligations.ResetStateMeetsTheInvariant := State.inv_reset

end Sys2Proof.Machine
end

section
/-! The handshake, the writers of each register, and what the outputs show. -/

namespace Sys2Proof.Machine

/-- A slot with a response passes exactly when the core is ready and is not reset (R31, R34). -/
theorem State.slotPasses_of_inValid (s : State) (hvalid : s.sourcePins.inValid = true) :
    s.slotPasses = true ↔ s.outputs.inReady = true ∧ s.hostPins.rst = false := by
  simp [State.slotPasses, State.accepts, State.outputs, hvalid, and_comm]

/-- Settles O10: what the edge leaves of the source is `step_environment`, and a presented response passes exactly when the
core is ready and is not reset. -/
theorem responsesAreTakenExactlyWhenReady : Obligations.ResponsesAreTakenExactlyWhenReady := by
  refine ⟨fun s => s.busy_iff, fun s t p rest hsource hp hstep => ?_⟩
  have hvalid : s.sourcePins.inValid = true := by simpa [State.sourcePins, hsource] using hp
  have htaken : t.source = if s.outputs.inReady = true ∧ s.hostPins.rst = false then rest else p :: rest := by
    simpa [hsource, s.slotPasses_of_inValid hvalid] using (step_environment s t hstep).2
  refine ⟨htaken, fun hidle => ?_⟩
  have hready : s.outputs.inReady = false := s.busy_of_idle hidle
  simpa [hready] using htaken

/-- Settles O33: in each case of `State.Edge` the registers written are those whose writers the case is among. -/
theorem registersChangeOnlyByTheirWriters : Obligations.RegistersChangeOnlyByTheirWriters := by
  intro s t hs hstep
  cases edge_of_step s t hstep with
  | reset hrst => simp [hrst]
  | illegal hrst hu => simp [hs.reachable] at hu
  | idleStart hrst hst hstart => simp [hrst, hst, hstart]
  | idleHold => simp
  | busyWait => simp
  | busySerr hacc hread herr =>
    by_cases hsync : s.st = St.sync
    · have hidx : s.idx = 0 := hs.index_elsewhere (.inr hsync)
      simp [hacc, herr, hsync, hidx]
    · have hm : s.m = 0 := hs.match_outside_sync hsync
      have hcode := (s.busy_iff.1 hread.1).resolve_left hsync
      simp [hacc, herr, hm, hcode]
  | syncHit0 h => simp [h.accepts, h.code]
  | syncMiss0 h => simp [h.accepts, h.code]
  | syncHit1 h => simp [h.accepts, h.code, hs.index_elsewhere (.inr h.code)]
  | syncMiss1 h => simp [h.accepts, h.code]
  | lenHi h => simp [h.accepts, h.code]
  | lenLoOk h => simp [h.accepts, h.code]
  | lenLoBad h => simp [h.accepts, h.code, h.match_zero hs (by decide)]
  | payByte h => simp [h.accepts, h.code]
  | payLast h => simp [h.accepts, h.code]
  | chkHi h => simp [h.accepts, h.code]
  | chkLoOk h => simp [h.accepts, h.code, h.match_zero hs (by decide)]
  | chkLoBad h => simp [h.accepts, h.code, h.match_zero hs (by decide)]

/-- Without a result and in IDLE no register shows at an output (R35, R41). -/
theorem State.outputs_of_idle (s : State) (hst : s.idle) (hrv : s.rv = false) (hrk : s.rk = .ok) :
    s.outputs = State.reset.outputs := by
  have hbusy : s.busy = State.reset.busy := State.busy_congr _ _ hst
  simp [State.outputs, State.inReady, hbusy, State.shows, hrv, hrk, show State.reset.rv = false from rfl,
    show State.reset.rk = .ok from rfl]

/-- Settles O28: the registers and outputs after reset are read off, and `State.outputs_of_idle` is the rest. -/
theorem registersAfterReset : Obligations.RegistersAfterReset :=
  ⟨rfl, rfl, rfl, rfl, rfl, fun _ => rfl, rfl, rfl, rfl, rfl, rfl, State.outputs_of_idle⟩

/-- A kind is shown exactly when a result is valid and rk has the code of the kind (R35, R80). -/
theorem State.shows_iff (s : State) (k : ResKind) : s.shows k = true ↔ s.rv = true ∧ s.rk.code = k.code := by
  have hcode : ∀ j, j = k ↔ j.code = k.code := by cases k <;> intro j <;> cases j <;> decide
  simp [State.shows, hcode]

/-- Settles O30: each result output is gated by its kind being shown, which is what rv and the code of rk say. -/
theorem resultOutputsAreGatedByTheirKind : Obligations.ResultOutputsAreGatedByTheirKind := by
  intro s
  simp only [State.outputs, State.shows_iff]
  exact ⟨rfl, rfl, rfl, rfl, rfl⟩

end Sys2Proof.Machine
end

section
/-! PAY.BYTE and the buffer addresses (R50, R160). -/

namespace Sys2Proof.Machine

/-- PAY.BYTE with a buffer address stores its byte and goes on. -/
theorem exec_payByte_inside (i : BitVec 5) (b : Byte) (s : State) (h : i.toNat < Config.payloadLen) :
    exec (.payByte i b) s = .next { s.accumulate b with buf := s.buf.writeByte i.toNat b, idx := i + 1 } := by
  simp only [exec, execPayByte, State.storeBuf_inside s _ b h]
  rfl

/-- PAY.BYTE with an index that is no buffer address stops. -/
theorem exec_payByte_outside (i : BitVec 5) (b : Byte) (s : State) (h : Config.payloadLen ≤ i.toNat) :
    exec (.payByte i b) s = .fault .bufferAddress := by
  simp only [exec, execPayByte, State.storeBuf_outside s _ b h]

/-- Settles O24: an index below 26 gives a next state, every other one stops. -/
theorem payloadIndexOutsideTheBufferFaults : Obligations.PayloadIndexOutsideTheBufferFaults := by
  intro i b s
  refine ⟨fun hfault => ?_, exec_payByte_outside i b s⟩
  by_contra hlt
  rw [exec_payByte_inside i b s (Nat.lt_of_not_le hlt)] at hfault
  cases hfault

end Sys2Proof.Machine
end

section
/-! The decoder on every key and on its own encodings (R73 to R77). -/

namespace Sys2Proof.Machine

/-! ## The decoder as a function of the fields -/

/-- On any key the table chooses what the prose of R76 chooses for its fields. -/
theorem decode_eq_transitionFor (k : Key) (e : SerialErr) :
    decode k e = some (transitionFor k.rst k.st k.m k.idx k.start k.inValid k.inIsErr k.inData e) := by
  rw [← decode_pack, Key.pack_fields]

/-- The index that R160 stores at is in no state of R84, and it is not the last. -/
theorem reachable_of_payload_index (idx : BitVec 5) (h : idx.toNat ≤ 24) :
    unreachable 3#3 idx = false ∧ idx ≠ 25#5 := by
  revert idx; decide

/-- In PAY a byte at an index from 0 to 24 is the operand of PAY.BYTE, whatever m and start are (R160). -/
theorem decode_payByte (m : BitVec 1) (idx : BitVec 5) (start : Bool) (b : Byte) (e : SerialErr) (h : idx.toNat ≤ 24) :
    decode (Key.pack false St.pay m idx start true false b) e = some (.payByte idx b) := by
  obtain ⟨hreach, hlast⟩ := reachable_of_payload_index idx h
  simp [decode_pack, transitionFor, hreach, hlast]

/-- Decoding inverts encoding on the operands a row admits; the three rows with a guard on an operand need it. -/
theorem decode_encode (i : Instr) (h : i.wf = true) : decode (encode i).1 (encode i).2 = some i := by
  cases i with
  | syncMiss0 b =>
    have hb : b ≠ Config.marker0 := by simpa [Instr.wf] using h
    exact (decode_pack ..).trans (congrArg some (if_neg hb))
  | syncMiss1 b =>
    have hb : b ≠ Config.marker1 := by simpa [Instr.wf] using h
    exact (decode_pack ..).trans (congrArg some (if_neg hb))
  | payByte idx b =>
    have hidx : idx.toNat ≤ 24 := by simpa [Instr.wf] using h
    exact decode_payByte 0 idx false b 0 hidx
  | _ => exact decode_pack ..

/-- Settles O2: the encoder packs fields for which R76 chooses the transition. -/
theorem decodeOfEncodeIsTheTransition : Obligations.DecodeOfEncodeIsTheTransition := decode_encode

/-- Settles O4: it is `decode_pack`. -/
theorem tableChoosesWhatTheProseSays : Obligations.TableChoosesWhatTheProseSays := decode_pack

/-! ## The selected row -/

/-- The transition of a row bears the row's mnemonic (R75). -/
theorem mnemonic_of_row (r : Row) (h : r ∈ rows) (k : Key) (e : SerialErr) :
    (r.operands k e).mnemonic = r.mnemonic := by
  revert r
  simp only [rows, List.forall_mem_cons]
  exact ⟨rfl, rfl, rfl, rfl, rfl, rfl, rfl, rfl, rfl, rfl, rfl, rfl, rfl, rfl, rfl, rfl, nofun⟩

/-- Settles O3: the decoder answers on every key, so a first row fits it; what it answers is well-formed by
`transitionFor_wf`. -/
theorem everyKeySelectsItsFirstRow : Obligations.EveryKeySelectsItsFirstRow := by
  intro k e
  have hdecode := decode_eq_transitionFor k e
  obtain ⟨r, hselected, hoperands⟩ := Option.map_eq_some_iff.1 hdecode
  obtain ⟨hfits, before, after, hrows, hbefore⟩ := List.find?_eq_some_iff_append.1 hselected
  have hmem : r ∈ rows := List.mem_of_find?_eq_some hselected
  exact ⟨before, r, after, hrows, hfits, by simpa using hbefore, hoperands ▸ hdecode,
    hoperands ▸ transitionFor_wf .., mnemonic_of_row r hmem k e⟩

/-- At a reset edge and outside SYNC no pattern looks at the data byte (R77). -/
theorem row_fits_of_not_sync (rst : Bool) (st : BitVec 3) (m : BitVec 1) (idx : BitVec 5) (start inValid inIsErr : Bool)
    (a b : Byte) (h : rst = true ∨ st ≠ St.sync) (r : Row) (hr : r ∈ rows) :
    r.fits (Key.pack rst st m idx start inValid inIsErr a) = r.fits (Key.pack rst st m idx start inValid inIsErr b) := by
  have hsync : (!rst && st == 1#3) = false := by rcases h with rfl | h <;> simp_all
  revert r
  simp [rows, Row.fits, illegalPatterns_fit, hsync]

/-- Settles O5: the same rows fit both keys, so the first that fits is the same; the rest is R76 in each state. -/
theorem dataByteSelectsARowOnlyInSync : Obligations.DataByteSelectsARowOnlyInSync := by
  intro rst st m idx start inValid inIsErr a b e
  refine ⟨fun h => ?_, decode_pack .., decode_pack .., decode_payByte m idx start b e, decode_pack .., decode_pack ..,
    decode_pack ..⟩
  have hrow : selectedRow (Key.pack rst st m idx start inValid inIsErr a) =
      selectedRow (Key.pack rst st m idx start inValid inIsErr b) :=
    List.find?_congr (row_fits_of_not_sync rst st m idx start inValid inIsErr a b h)
  rw [hrow]

/-- Settles O1: each word is one closed number, and the last is above 21 bits. -/
theorem sampleKeysDecodeAsTheTableSays : Obligations.SampleKeysDecodeAsTheTableSays := by
  unfold Obligations.SampleKeysDecodeAsTheTableSays
  decide

end Sys2Proof.Machine
end

section
/-! One edge as an equation, its environment, and the recovery of R84. -/

namespace Sys2Proof.Machine

/-! ## The step as an equation -/

/-- Every edge runs the transition that R76 chooses for its pins and registers. -/
theorem step_eq_exec (s : State) : step s =
    exec (transitionFor s.hostPins.rst s.st s.m s.idx s.hostPins.start s.sourcePins.inValid s.sourcePins.inIsErr
      s.sourcePins.inData s.sourcePins.inErr) s.passEdge := by
  unfold step State.edgeKey State.edgeErr
  rw [decode_pack]

/-- Settles O9: the transition R76 chooses is well-formed, and no well-formed transition stops. -/
theorem everyEdgeLeadsToANextState : Obligations.EveryEdgeLeadsToANextState := by
  intro s
  rw [step_eq_exec]
  exact exec_next_of_wf _ (transitionFor_wf ..) _

/-- An edge drops the host's next pins and the slot that passes; beside them only the two free-value counters may change. -/
theorem State.passEdge_eq (s : State) : s.passEdge = { s with
    host := s.host.tail, hostFree := s.passEdge.hostFree
    source := if s.slotPasses then s.source.tail else s.source
    sourceFree := s.passEdge.sourceFree } := by
  unfold State.passEdge
  generalize s.slotPasses = passes
  obtain ⟨st, m, idx, len, acc, buf, trl, serr, rv, rk, host, source, hostFree, sourceFree⟩ := s
  cases passes with
  | false => cases host <;> rfl
  | true => cases host <;> cases source <;> rfl

/-- Settles O8: the step is the decoded transition by definition, and a slot passes unless it is held. -/
theorem stepRunsTheDecodedTransition : Obligations.StepRunsTheDecodedTransition := by
  intro s i hi
  have hheld : (if s.sourcePins.inValid && !s.accepts then s.source else s.source.tail) =
      if s.slotPasses then s.source.tail else s.source := by
    unfold State.slotPasses
    cases s.sourcePins.inValid <;> cases s.accepts <;> rfl
  refine ⟨by simp [step, hi], ?_⟩
  rw [hheld]
  exact s.passEdge_eq

/-! ## The source pins -/

/-- An edge without a response passes its slot, whatever the slot's other pins are (R81). -/
theorem State.passEdge_of_no_response (s : State) (err : Bool) (data : Byte) (e : SerialErr) (rest : List SourcePins) :
    { s with source := ⟨false, err, data, e⟩ :: rest }.passEdge = { s with source := rest }.dropHost := by
  obtain ⟨⟩ := s
  rename_i host _ _ _
  cases host <;> rfl

/-- Without in_valid the choice of R76 does not use the other source pins (R81). -/
theorem transitionFor_of_no_response (rst : Bool) (st : BitVec 3) (m : BitVec 1) (idx : BitVec 5)
    (start err err' : Bool) (data data' : Byte) (e e' : SerialErr) :
    transitionFor rst st m idx start false err data e = transitionFor rst st m idx start false err' data' e' := rfl

/-- With in_valid and in_is_err a state that reads takes BUSY.SERR (R81, R300). -/
theorem transitionFor_of_error (st : BitVec 3) (m : BitVec 1) (idx : BitVec 5) (start : Bool) (data : Byte)
    (e : SerialErr) (hidle : st ≠ St.idle) (hreach : unreachable st idx = false) :
    transitionFor false st m idx start true true data e = .busySerr e := by
  simp [transitionFor, hreach, show st ≠ 0#3 from hidle]

/-- Without in_is_err the choice of R76 is never BUSY.SERR (R81). -/
theorem transitionFor_ne_busySerr (rst : Bool) (st : BitVec 3) (m : BitVec 1) (idx : BitVec 5) (start inValid : Bool)
    (data : Byte) (e e' : SerialErr) : transitionFor rst st m idx start inValid false data e ≠ .busySerr e' := by
  simp only [transitionFor, Bool.false_eq_true, if_false]
  repeat' split
  all_goals nofun

/-- Settles O6: the two edges choose one transition and leave one environment; in a state that reads, in_is_err selects
BUSY.SERR. -/
theorem sourcePinsMeanWhatTheirKindSays : Obligations.SourcePinsMeanWhatTheirKindSays := by
  refine ⟨fun s rest err err' data data' e e' => ?_, fun s hread hrst hvalid => ⟨fun herr => ?_, fun herr => ?_⟩⟩
  · rw [step_eq_exec, step_eq_exec, State.passEdge_of_no_response, State.passEdge_of_no_response]
    exact congrArg (exec · _) (transitionFor_of_no_response ..)
  · obtain ⟨hidle, hreach⟩ := s.reading_iff.1 hread
    rw [step_eq_exec, hrst, hvalid, herr, transitionFor_of_error _ _ _ _ _ _ hidle hreach]
  · refine ⟨_, step_eq_exec s, decode_pack .., fun e => ?_⟩
    exact herr ▸ transitionFor_ne_busySerr _ _ _ _ _ _ _ _ e

/-! ## Recovery from the states that no run reaches -/

/-- The states of R84, code by code. -/
theorem unreachable_iff (st : BitVec 3) (idx : BitVec 5) : unreachable st idx = true ↔
    5 ≤ st.toNat ∨ ((st = St.len ∨ st = St.chk) ∧ 2 ≤ idx.toNat) ∨ (st = St.pay ∧ 26 ≤ idx.toNat) := by
  simp [unreachable, or_assoc]

/-- The choice of R76 is ILLEGAL exactly without a reset in a state of R84. -/
theorem transitionFor_eq_illegal_iff (rst : Bool) (st : BitVec 3) (m : BitVec 1) (idx : BitVec 5)
    (start inValid inIsErr : Bool) (inData : Byte) (e : SerialErr) :
    transitionFor rst st m idx start inValid inIsErr inData e = .illegal ↔ rst = false ∧ unreachable st idx = true := by
  cases rst with
  | true => simp [transitionFor]
  | false =>
    cases hu : unreachable st idx with
    | true => simp [transitionFor, hu]
    | false =>
      have hother : transitionFor false st m idx start inValid inIsErr inData e ≠ .illegal := by
        simp only [transitionFor, hu, Bool.false_eq_true, if_false]
        repeat' split
        all_goals nofun
      simp [hother]

/-- A code of a state of R84 is one of the busy codes exactly when it is not reserved. -/
theorem busy_code_iff_of_unreachable (st : BitVec 3) (idx : BitVec 5) (h : unreachable st idx = true) :
    (st = St.sync ∨ st = St.len ∨ st = St.pay ∨ st = St.chk) ↔ ¬ 5 ≤ st.toNat := by
  revert st idx; decide

/-- A ready core without a reset leaves nothing of its slot: a response is accepted, and an empty slot passes. -/
theorem State.slotPasses_of_busy (s : State) (hrst : s.hostPins.rst = false) (hbusy : s.busy = true) :
    s.slotPasses = true := by
  simp [State.slotPasses, State.accepts, State.inReady, hrst, hbusy]

/-- A core that is not busy accepts nothing (R34). -/
theorem State.accepts_of_not_busy (s : State) (h : s.busy = false) : s.accepts = false := by
  simp [State.accepts, State.inReady, h]

/-- Settles O12: ILLEGAL is chosen exactly in the states of R84; its effect is `State.recover`; and a presented response is
accepted there exactly when the code is one of the busy ones. -/
theorem unreachableStatesRecoverToIdle : Obligations.UnreachableStatesRecoverToIdle := by
  refine ⟨fun k e => ?_, fun s => rfl, fun s hrst hu => ?_⟩
  · rw [decode_eq_transitionFor, Option.some_inj, transitionFor_eq_illegal_iff, unreachable_iff]
  · have hbusy : s.busy = true ↔ ¬ 5 ≤ s.st.toNat := s.busy_iff.trans (busy_code_iff_of_unreachable _ _ hu)
    have hstep : step s = .next s.passEdge.recover := by
      rw [step_eq_exec, (transitionFor_eq_illegal_iff ..).2 ⟨hrst, hu⟩]
      rfl
    refine ⟨_, hstep, rfl, ?_⟩
    rw [(step_environment s _ hstep).2]
    by_cases hcode : 5 ≤ s.st.toNat
    · rw [if_pos hcode, s.source_held (s.accepts_of_not_busy (by simpa [hcode] using hbusy))]
    · rw [if_neg hcode, if_pos (s.slotPasses_of_busy hrst (hbusy.2 hcode))]

end Sys2Proof.Machine
end

section
/-! Values of two bytes, the codes of the result kinds, and the payload bytes that no field reads. -/

namespace Sys2Proof.Machine

/-- Settles O7: assembly is concatenation, which both halves are read back from. -/
theorem pairsAreBigEndianAndUnsigned : Obligations.PairsAreBigEndianAndUnsigned := fun a b =>
  ⟨pair_toNat a b, by rw [pair_eq_append, hiByte_append], by rw [pair_eq_append, loByte_append]⟩

/-- No two kinds of result share a code (R80). -/
theorem ResKind.code_injective (a b : ResKind) (h : a.code = b.code) : a = b := by
  revert h
  cases a <;> cases b <;> decide

/-- Settles O29: the codes and res_kind are read off, and `ResKind.code_injective` is the rest. -/
theorem resultKindsHaveTheirCodes : Obligations.ResultKindsHaveTheirCodes :=
  ⟨rfl, rfl, rfl, rfl, ResKind.code_injective, fun _ => rfl⟩

/-! ## Payload bytes 24 and 25 (R85, R202) -/

/-- A write at an address above a field leaves the field. -/
theorem Memory.field_writeByte (buf : Memory) (h : buf.wf) (i k : Nat) (b : Byte) (hi : 2 * k + 1 < i) :
    (buf.writeByte i b).field k = buf.field k := by
  simp only [Memory.field, Memory.readByte_writeByte buf h]
  rw [if_neg (by omega), if_neg (by omega)]

/-- The measurement reads the addresses below 24 only (R201). -/
theorem parse_writeByte (buf : Memory) (h : buf.wf) (i : Nat) (b : Byte) (hi : 24 ≤ i) :
    parse (buf.writeByte i b) = parse buf := by
  have hfield (k : Nat) (hk : k < 12) : (buf.writeByte i b).field k = buf.field k :=
    Memory.field_writeByte buf h i k b (by omega)
  simp [parse, hfield]

/-- The outputs show the buffer through `parse` only (R33). -/
theorem State.outputs_of_parse_eq (s : State) (buf : Memory) (h : parse buf = parse s.buf) :
    { s with buf := buf }.outputs = s.outputs := by
  simp only [State.outputs, h]
  rfl

/-- PAY.LAST stores its byte at address 25, adds it, and leads to CHK (R161). -/
theorem exec_payLast (b : Byte) (s : State) : exec (.payLast b) s =
    .next { s.accumulate b with buf := s.buf.writeByte 25 b, st := St.chk, idx := 0 } := rfl

/-- Settles O32: no field reads an address from 24 up, and both rows store and add their byte. -/
theorem reservedBytesAreShownNowhere : Obligations.ReservedBytesAreShownNowhere := by
  refine ⟨fun s i b hs hi => s.outputs_of_parse_eq _ (parse_writeByte _ hs i b (by omega)), fun b s hs => ⟨?_, ?_⟩⟩
  · exact ⟨_, exec_payByte_inside 24 b s (by decide), by simp [State.bufByte, Memory.readByte_writeByte _ hs],
      addByte_toNat s.acc b⟩
  · exact ⟨_, exec_payLast b s, by simp [State.bufByte, Memory.readByte_writeByte _ hs], addByte_toNat s.acc b⟩

end Sys2Proof.Machine
end

section
/-! The frame behind an OK result (R70, R220): what each phase of a transaction read, when it ended well. -/

namespace Sys2Proof.Machine

/-- The byte before that a scan still counts on: a 0x42 when `matched` says so (R125). -/
def matchedPrefix (matched : Bool) : List Byte := if matched then [Config.marker0] else []

/-- A scan that locks has read bytes only, and they end in the two markers, of which the first may be the one that had
matched before. -/
theorem scanFrom_done (matched : Bool) (n j : Nat) (rs : List Response) (h : scanFrom matched n rs = .done () j) :
    ∃ (bs noise : List Byte) (rest : List Response), rs = byteResponses bs ++ rest ∧ j = n + bs.length ∧
      matchedPrefix matched ++ bs = noise ++ [Config.marker0, Config.marker1] := by
  induction rs generalizing matched n with
  | nil => cases h
  | cons r rs ih =>
    cases r with
    | err e => cases h
    | byte b =>
      unfold scanFrom at h
      split at h
      · next hlock =>
        obtain ⟨rfl, hb⟩ : matched = true ∧ b = Config.marker1 := by simpa using hlock
        cases h
        exact ⟨[b], [], rs, rfl, rfl, by simp [matchedPrefix, hb]⟩
      · obtain ⟨bs, noise, rest, hrs, hj, hmarkers⟩ := ih _ _ h
        have hlen : j = n + (b :: bs).length := by simp [hj]; omega
        refine ⟨b :: bs, ?_⟩
        cases hfirst : !matched && b == Config.marker0 with
        | true =>
          obtain ⟨rfl, hb⟩ : matched = false ∧ b = Config.marker0 := by simpa using hfirst
          exact ⟨noise, rest, by simp [byteResponses, hrs], hlen, by simpa [hfirst, matchedPrefix, hb] using hmarkers⟩
        | false =>
          refine ⟨matchedPrefix matched ++ b :: noise, rest, by simp [byteResponses, hrs], hlen, ?_⟩
          have hbs : bs = noise ++ [Config.marker0, Config.marker1] := by simpa [hfirst, matchedPrefix] using hmarkers
          simp [hbs]

/-- A phase that ends well has read its number of bytes, and they begin the responses. -/
theorem takeBytes_done (k n n' : Nat) (rs : List Response) (bs : List Byte) (h : takeBytes k n rs = .done bs n') :
    bs.length = k ∧ n' = n + k ∧ ∃ rest, rs = byteResponses bs ++ rest := by
  induction k generalizing n rs bs with
  | zero =>
    cases h
    exact ⟨rfl, rfl, rs, rfl⟩
  | succ k ih =>
    cases rs with
    | nil => cases h
    | cons r rs =>
      cases r with
      | err e => cases h
      | byte b =>
        unfold takeBytes at h
        split at h
        · next tl m htl =>
          cases h
          obtain ⟨hlen, hm, rest, hrest⟩ := ih _ _ _ htl
          exact ⟨by simp [hlen], by omega, rest, by simp [byteResponses, hrest]⟩
        · cases h
        · cases h

/-- Two bytes are determined by their value (R71). -/
theorem eq_of_pairValue (l : List Byte) (h : l.length = 2) :
    l = [BitVec.ofNat 8 (pairValue l / 256), BitVec.ofNat 8 (pairValue l)] := by
  obtain ⟨hi, lo, rfl⟩ := List.length_eq_two.1 h
  have hlo := lo.isLt
  have hdiv : (hi.toNat * 256 + lo.toNat) / 256 = hi.toNat := by omega
  have hmod : BitVec.ofNat 8 (hi.toNat * 256 + lo.toNat) = lo := by bv_omega
  simp only [pairValue, hdiv, hmod, BitVec.ofNat_toNat, BitVec.setWidth_eq]

/-- The two trailer bytes of a well-formed frame with the payload `p` (R70, R220). -/
def frameTrailer (p : List Byte) : List Byte := [BitVec.ofNat 8 (frameSum p / 256), BitVec.ofNat 8 (frameSum p)]

/-- A well-formed frame phase by phase: the markers, the length 28, the payload, the trailer (R70). -/
theorem frameBytes_eq (p : List Byte) :
    frameBytes p = [Config.marker0, Config.marker1] ++ ([0x00, 0x1C] ++ (p ++ frameTrailer p)) := by
  simp [frameBytes, frameTrailer]

theorem byteResponses_append (as bs : List Byte) : byteResponses (as ++ bs) = byteResponses as ++ byteResponses bs :=
  List.map_append

/-- What follows the bytes a phase has read. -/
theorem drop_byteResponses (rs rest : List Response) (n : Nat) (bs : List Byte)
    (h : rs.drop n = byteResponses bs ++ rest) : rs.drop (n + bs.length) = rest := by
  rw [← List.drop_drop, h]
  exact List.drop_left' (List.length_map _)

/-- The trailer behind an OK result is the sum of the frame (R184, R220). -/
theorem trailerPhase_ok (p : List Byte) (n m : Nat) (rs : List Response) (f : Measurement)
    (h : trailerPhase p n rs = some (.ok f, m)) :
    f = parsePayload p ∧ m = n + 2 ∧ ∃ rest, rs.drop n = byteResponses (frameTrailer p) ++ rest := by
  unfold trailerPhase at h
  split at h
  · cases h
  · cases h
  · next t n' ht =>
    obtain ⟨hlen, hn, rest, hrest⟩ := takeBytes_done _ _ _ _ _ ht
    split at h
    · next hsum =>
      cases h
      rw [eq_of_pairValue t hlen, hsum] at hrest
      exact ⟨rfl, hn, rest, hrest⟩
    · cases h

/-- The payload behind an OK result is 26 bytes with their trailer (R160, R161, R220). -/
theorem payloadPhase_ok (n m : Nat) (rs : List Response) (f : Measurement) (h : payloadPhase n rs = some (.ok f, m)) :
    ∃ p rest, p.length = 26 ∧ f = parsePayload p ∧ m = n + 28 ∧
      rs.drop n = byteResponses (p ++ frameTrailer p) ++ rest := by
  unfold payloadPhase at h
  split at h
  · cases h
  · cases h
  · next p n' hp =>
    obtain ⟨hlen, rfl, after, hafter⟩ := takeBytes_done _ _ _ _ _ hp
    obtain ⟨hf, hm, rest, hrest⟩ := trailerPhase_ok _ _ _ _ _ h
    rw [← hlen, drop_byteResponses _ _ _ _ hafter] at hrest
    exact ⟨p, rest, hlen, hf, by omega, by rw [hafter, hrest, byteResponses_append, List.append_assoc]⟩

/-- The length behind an OK result is 28 (R141, R220). -/
theorem lengthPhase_ok (n m : Nat) (rs : List Response) (f : Measurement) (h : lengthPhase n rs = some (.ok f, m)) :
    ∃ p rest, p.length = 26 ∧ f = parsePayload p ∧ m = n + 30 ∧
      rs.drop n = byteResponses ([0x00, 0x1C] ++ (p ++ frameTrailer p)) ++ rest := by
  unfold lengthPhase at h
  split at h
  · cases h
  · cases h
  · next l n' hl =>
    obtain ⟨hlen, rfl, after, hafter⟩ := takeBytes_done _ _ _ _ _ hl
    split at h
    · next hvalue =>
      obtain ⟨p, rest, hp, hf, hm, hrest⟩ := payloadPhase_ok _ _ _ _ h
      have hbytes : l = [0x00, 0x1C] := by rw [eq_of_pairValue l hlen, hvalue]; decide
      rw [← hlen, drop_byteResponses _ _ _ _ hafter] at hrest
      exact ⟨p, rest, hp, hf, by omega, by rw [hafter, hrest, hbytes, byteResponses_append _ (p ++ _), List.append_assoc]⟩
    · cases h

/-- Settles O49: the scan that locks leaves the noise and the two markers, and the phases after it leave the rest of the
frame. -/
theorem okResultsComeFromWellFormedFrames : Obligations.OkResultsComeFromWellFormedFrames := by
  intro rs f n h
  unfold transaction at h
  split at h
  · cases h
  · cases h
  · next j hscan =>
    obtain ⟨bs, noise, after, hrs, hj, hmarkers⟩ := scanFrom_done _ _ _ _ hscan
    obtain ⟨p, rest, hp, hf, hn, hrest⟩ := lengthPhase_ok _ _ _ _ h
    obtain rfl : bs = noise ++ [Config.marker0, Config.marker1] := hmarkers
    have hafter : rs.drop j = after := hj ▸ drop_byteResponses rs after 0 _ hrs
    refine ⟨noise, p, rest, hp, ?_, hf, ?_⟩
    · rw [hrs, ← hafter, hrest, frameBytes_eq]
      simp only [byteResponses_append, List.append_assoc]
    · simp [hn, hj]

end Sys2Proof.Machine
end

section
/-! The measure command: START and its absence in IDLE, waits, and the edges that end a transaction (R100 to R105, R301). -/

namespace Sys2Proof.Machine

/-! ## Keys and edges of IDLE -/

/-- A masked key equal to a match value has the pattern, read on its fields (R74). -/
theorem fits_fields_of_masked_eq (k mask value : Key) (h : k &&& mask = value) :
    Pattern.fits ⟨value, mask⟩ (Key.pack k.rst k.st k.m k.idx k.start k.inValid k.inIsErr k.inData) = true := by
  rw [Key.pack_fields, Pattern.fits, beq_iff_eq]
  exact h

/-- In IDLE without a reset start alone chooses the transition (R100, R101). -/
theorem transitionFor_of_idle (m : BitVec 1) (idx : BitVec 5) (start inValid inIsErr : Bool) (inData : Byte)
    (e : SerialErr) : transitionFor false St.idle m idx start inValid inIsErr inData e =
      if start then .idleStart else .idleHold := rfl

/-- An edge of IDLE without a reset is START or HOLD (R100, R101). -/
theorem step_of_idle (s : State) (hst : s.idle) (hrst : s.hostPins.rst = false) :
    step s = exec (if s.hostPins.start then .idleStart else .idleHold) s.passEdge := by
  rw [step_eq_exec, hrst, hst, transitionFor_of_idle]

/-- An idle core leaves a presented response to the source (R34, R104). -/
theorem State.passEdge_source_of_idle (s : State) (hst : s.idle) : s.passEdge.source = s.sourceIfHeld := by
  rw [s.passEdge_source, s.source_held (s.accepts_of_idle hst)]

/-- Settles O13: in IDLE start selects IDLE.START, and its effect overwrites every register that an output shows. -/
theorem startBeginsAFreshTransaction : Obligations.StartBeginsAFreshTransaction := by
  refine ⟨fun k e hk => ?_, fun s => rfl, fun s hst hrst hstart => ?_⟩
  · have hfits := fits_fields_of_masked_eq _ _ _ hk
    obtain ⟨⟨hrst, hst⟩, hstart⟩ : (k.rst = false ∧ k.st = St.idle) ∧ k.start = true := by simpa using hfits
    rw [decode_eq_transitionFor, hrst, hst, hstart, transitionFor_of_idle, if_pos rfl]
  · have hstep : step s = .next s.passEdge.startTransaction := by
      rw [step_of_idle s hst hrst, hstart]
      rfl
    exact ⟨_, hstep, s.passEdge_source_of_idle hst, fun _ => rfl, rfl⟩

/-- Settles O14: in IDLE without start the step is the move of the environment alone, which no output shows. -/
theorem idleEdgeHoldsEverything : Obligations.IdleEdgeHoldsEverything := by
  refine ⟨fun k e hk => ?_, fun s => rfl, fun s hst hrst hstart => ?_⟩
  · have hfits := fits_fields_of_masked_eq _ _ _ hk
    obtain ⟨⟨hrst, hst⟩, hstart⟩ : (k.rst = false ∧ k.st = St.idle) ∧ k.start = false := by simpa using hfits
    rw [decode_eq_transitionFor, hrst, hst, hstart, transitionFor_of_idle]
    rfl
  · have hstep : step s = .next s.passEdge := by
      rw [step_of_idle s hst hrst, hstart]
      rfl
    exact ⟨hstep, s.passEdge_outputs, s.passEdge_source_of_idle hst⟩

/-! ## Waits -/

/-- Without a response a state that reads takes BUSY.WAIT, whatever start is (R102, R103). -/
theorem transitionFor_of_wait (st : BitVec 3) (m : BitVec 1) (idx : BitVec 5) (start inIsErr : Bool) (inData : Byte)
    (e : SerialErr) (hidle : st ≠ St.idle) (hreach : unreachable st idx = false) :
    transitionFor false st m idx start false inIsErr inData e = .busyWait := by
  simp [transitionFor, hreach, show st ≠ 0#3 from hidle]

/-- A wait uses up its pins and its empty slot and changes nothing else (R102). -/
theorem step_of_wait (s : State) (p : HostPins) (hs : List HostPins) (w : SourcePins) (ws : List SourcePins)
    (hread : s.reading) (hrst : p.rst = false) (hvalid : w.inValid = false) :
    step { s with host := p :: hs, source := w :: ws } = .next { s with host := hs, source := ws } := by
  obtain ⟨hidle, hreach⟩ := s.reading_iff.1 hread
  obtain ⟨inValid, inIsErr, inData, inErr⟩ := w
  obtain rfl : inValid = false := hvalid
  have hchoice := transitionFor_of_wait s.st s.m s.idx p.start inIsErr inData inErr hidle hreach
  rw [step_eq_exec]
  simp only [State.hostPins, State.sourcePins, hrst, hchoice]
  exact congrArg Host.Outcome.next
    (State.passEdge_of_no_response { s with host := p :: hs } inIsErr inData inErr ws)

/-- Settles O15: each wait is `step_of_wait`, and the run follows by induction on the empty slots. -/
theorem waitingLosesNothing : Obligations.WaitingLosesNothing := by
  refine ⟨fun k e hk hidle hreach => ?_, fun s => rfl, fun s hs ws hread hrst hlen hempty => ?_⟩
  · have hfits := fits_fields_of_masked_eq _ _ _ hk
    obtain ⟨hrst, hvalid⟩ : k.rst = false ∧ k.inValid = false := by simpa using hfits
    rw [decode_eq_transitionFor, hrst, hvalid, transitionFor_of_wait _ _ _ _ _ _ _ hidle hreach]
  · induction ws generalizing hs with
    | nil =>
      obtain rfl : hs = [] := List.length_eq_zero_iff.1 hlen
      rfl
    | cons w ws ih =>
      obtain ⟨p, hs, rfl⟩ := List.exists_cons_of_length_eq_add_one hlen
      obtain ⟨hp, hrest⟩ := List.forall_mem_cons.1 hrst
      obtain ⟨hw, hwaits⟩ := List.forall_mem_cons.1 hempty
      have hfirst := step_of_wait s p (hs ++ s.host) w (ws ++ s.source) hread hp hw
      exact (run_succ _ _ _ hfirst).trans (ih hs hrest (Nat.succ.inj hlen) hwaits)

/-! ## The end of a transaction -/

/-- A result becomes valid only where a response that a busy core accepts ends the transaction (R29, R301). -/
theorem State.Edge.ends_of_new_result {s t : State} (h : s.Edge t) (hrv : s.rv = false) (hres : t.rv = true) :
    s.busy = true ∧ t.busy = false := by
  cases h with
  | busySerr hacc => exact ⟨s.busy_of_accepts hacc, rfl⟩
  | lenLoBad h => exact ⟨s.busy_of_accepts h.accepts, rfl⟩
  | chkLoOk h => exact ⟨s.busy_of_accepts h.accepts, rfl⟩
  | chkLoBad h => exact ⟨s.busy_of_accepts h.accepts, rfl⟩
  | _ => simp [hrv] at hres

/-- Settles O34: a row that ends no transaction leaves the core busy; RESET and ILLEGAL give up the transaction, and each of
the other four ends is one outcome. -/
theorem transactionsEndOnlyByTheirRules : Obligations.TransactionsEndOnlyByTheirRules := by
  intro s t hstep
  have hedge := edge_of_step s t hstep
  refine ⟨fun hbusy hend => ?_, hedge.ends_of_new_result⟩
  cases hedge with
  | reset hrst => exact ⟨rfl, .inl ⟨rfl, .inl hrst⟩⟩
  | illegal hrst hu => exact ⟨rfl, .inl ⟨rfl, .inr hu⟩⟩
  | busySerr hacc hread herr => exact ⟨rfl, .inr ⟨rfl, hacc, .inl ⟨rfl, herr, rfl⟩⟩⟩
  | lenLoBad h hidx hlen =>
    obtain rfl := h.data
    have hrecorded := congrArg (setLo · s.sourcePins.inData) s.passEdge_len
    exact ⟨rfl, .inr ⟨rfl, h.accepts, .inr (.inl ⟨h.noError, rfl, h.code, hidx, hrecorded, hrecorded ▸ hlen⟩)⟩⟩
  | chkLoBad h hidx hsum =>
    obtain rfl := h.data
    have hrecorded := congrArg (setLo · s.sourcePins.inData) s.passEdge_trl
    exact ⟨rfl, .inr ⟨rfl, h.accepts, .inr (.inr (.inl ⟨h.noError, rfl, h.code, hidx, s.passEdge_acc, hrecorded,
      by simpa using hsum⟩))⟩⟩
  | chkLoOk h hidx hsum =>
    obtain rfl := h.data
    have hrecorded := congrArg (setLo · s.sourcePins.inData) s.passEdge_trl
    exact ⟨rfl, .inr ⟨rfl, h.accepts, .inr (.inr (.inr ⟨h.noError, rfl, h.code, hidx, s.passEdge_acc, hrecorded,
      by simpa using hsum⟩))⟩⟩
  | idleStart => simp [State.busy] at hend
  | idleHold hrst hst => simp [s.busy_of_idle hst] at hbusy
  | busyWait hrst hread => simp [State.busy_congr _ s s.passEdge_st, hbusy] at hend
  | syncHit0 h => simp [State.busy, h.code] at hend
  | syncMiss0 h => simp [State.busy, h.code] at hend
  | syncHit1 => simp [State.busy] at hend
  | syncMiss1 h => simp [State.busy, h.code] at hend
  | lenHi h => simp [State.busy, h.code] at hend
  | lenLoOk => simp [State.busy] at hend
  | payByte h => simp [State.busy, h.code] at hend
  | payLast => simp [State.busy] at hend
  | chkHi h => simp [State.busy, h.code] at hend

/-! ## START in a busy state -/

/-- Outside IDLE the choice of R76 does not use start (R103). -/
theorem transitionFor_start_irrelevant (rst : Bool) (st : BitVec 3) (m : BitVec 1) (idx : BitVec 5)
    (start start' inValid inIsErr : Bool) (inData : Byte) (e : SerialErr) (hidle : st ≠ St.idle) :
    transitionFor rst st m idx start inValid inIsErr inData e =
      transitionFor rst st m idx start' inValid inIsErr inData e := by
  simp [transitionFor, show st ≠ 0#3 from hidle]

/-- Settles O35: the two edges choose one transition and leave one environment; an end without a result needs a reset or a
state of R84. -/
theorem startIsIgnoredWhileBusy : Obligations.StartIsIgnoredWhileBusy := by
  refine ⟨fun s rst a b rest hbusy => ?_, fun s t hread hrst hstep => ?_⟩
  · have hidle : s.st ≠ St.idle := fun hst => by simp [s.busy_of_idle hst] at hbusy
    rw [step_eq_exec, step_eq_exec]
    exact congrArg (exec · _) (transitionFor_start_irrelevant _ _ _ _ _ _ _ _ _ _ hidle)
  · refine or_iff_not_imp_left.2 fun hend => ?_
    have hend : t.busy = false := by simpa using hend
    obtain ⟨-, ⟨-, hcause⟩ | ⟨hrv, -⟩⟩ := (transactionsEndOnlyByTheirRules s t hstep).1 hread.1 hend
    · simp [hrst, hread.2] at hcause
    · exact ⟨hend, hrv⟩

end Sys2Proof.Machine
end

section
/-! The synchronization scan, byte by byte (R120 to R123, R125, R127). -/

namespace Sys2Proof.Machine

/-! ## The choice of the row in SYNC -/

/-- The row of a byte accepted in SYNC: the match position says which marker it is compared with (R76). -/
def syncTransition (m : BitVec 1) (b : Byte) : Instr :=
  if m = 0#1 then if b = Config.marker0 then .syncHit0 else .syncMiss0 b
  else if b = Config.marker1 then .syncHit1 else .syncMiss1 b

/-- In SYNC without a reset a presented byte is compared with a marker, whatever idx and start are (R76). -/
theorem transitionFor_of_sync (m : BitVec 1) (idx : BitVec 5) (start : Bool) (b : Byte) (e : SerialErr) :
    transitionFor false St.sync m idx start true false b e = syncTransition m b := rfl

/-- The four rows of SYNC (R75) fix rst, st, m, in_valid and in_is_err and may fix the byte: a key that has such a pattern
decodes to the comparison of its byte. -/
theorem decode_of_sync_pattern (k : Key) (e : SerialErr) (m : BitVec 1) (mask value : Byte)
    (h : k &&& Key.pack true 7 1 0 false true true mask = Key.pack false St.sync m 0 false true false value) :
    decode k e = some (syncTransition m k.inData) ∧ k.inData &&& mask = value := by
  rw [← Key.pack_fields k, Key.pack_and, Key.pack_inj] at h
  obtain ⟨hrst, hst, hm, -, -, hvalid, herr, hdata⟩ := h
  rw [Bool.and_true] at hrst hvalid herr
  have hst : k.st = St.sync := (code_and_ones k.st).symm.trans hst
  have hm : k.m = m := (bit_and_one k.m).symm.trans hm
  rw [decode_eq_transitionFor, hrst, hst, hm, hvalid, herr, transitionFor_of_sync]
  exact ⟨rfl, hdata⟩

/-! ## One byte -/

/-- The registers after a byte accepted in SYNC: the lock of R123, or the new match position (R120 to R122). -/
def State.scanByte (s : State) (b : Byte) : State :=
  if s.m = 1 ∧ b = Config.marker1 then { s with st := St.len, idx := 0, m := 0, acc := markerSum }
  else { s with m := if s.m = 0 ∧ b = Config.marker0 then 1 else 0 }

theorem State.scanByte_of_lock (s : State) (hm : s.m = 1) :
    s.scanByte Config.marker1 = { s with st := St.len, idx := 0, m := 0, acc := markerSum } := if_pos ⟨hm, rfl⟩

theorem State.scanByte_of_no_lock (s : State) (b : Byte) (h : ¬(s.m = 1 ∧ b = Config.marker1)) :
    s.scanByte b = { s with m := if s.m = 0 ∧ b = Config.marker0 then 1 else 0 } := if_neg h

/-- The four rows of SYNC write what `State.scanByte` says. -/
theorem exec_syncTransition (s : State) (b : Byte) : exec (syncTransition s.m b) s = .next (s.scanByte b) := by
  rcases BitVec.eq_zero_or_eq_one s.m with hm | hm
  · by_cases hb : b = Config.marker0 <;> simp [syncTransition, State.scanByte, hm, hb, exec, execSyncHit0, execSyncMiss0]
  · by_cases hb : b = Config.marker1 <;> simp [syncTransition, State.scanByte, hm, hb, exec, execSyncHit1, execSyncMiss1]

/-- A response is accepted only where it is presented and the core is not reset (R31). -/
theorem State.pins_of_accepts (s : State) (h : s.accepts = true) :
    s.hostPins.rst = false ∧ s.sourcePins.inValid = true := by
  simp only [State.accepts, Bool.and_eq_true, Bool.not_eq_true'] at h
  exact h.1

/-- An accepted response is used up (R56). -/
theorem State.slotPasses_of_accepts (s : State) (h : s.accepts = true) : s.slotPasses = true := by
  simp [State.slotPasses, h]

/-- A byte presented in SYNC without a reset is accepted (R31, R34). -/
theorem State.reads_in_sync (s : State) (hst : s.st = St.sync) (hrst : s.hostPins.rst = false)
    (hvalid : s.sourcePins.inValid = true) (herr : s.sourcePins.inIsErr = false) :
    s.Reads St.sync s.sourcePins.inData where
  accepts := by simp [State.accepts, State.inReady, s.busy_iff.2 (.inl hst), hrst, hvalid]
  noError := herr
  data := rfl
  code := hst

/-- An edge that accepts a byte in SYNC. -/
theorem step_of_sync_byte (s : State) (b : Byte) (h : s.Reads St.sync b) : step s = .next (s.passEdge.scanByte b) := by
  obtain ⟨hrst, hvalid⟩ := s.pins_of_accepts h.accepts
  rw [step_eq_exec, hrst, hvalid, h.noError, h.data, h.code, transitionFor_of_sync, ← s.passEdge_m, exec_syncTransition]

/-- Settles O17: row 7 is the comparison with MARKER0 that holds, and among the cases of `State.Edge` it alone leads from
m = 0 to m = 1. -/
theorem firstMarkerByteIsMatched : Obligations.FirstMarkerByteIsMatched := by
  refine ⟨fun k e hk => ?_, fun s => rfl, fun s t hs hm hstep hmatched => ?_, fun s hs hw hst => ?_⟩
  · obtain ⟨hdecode, hdata⟩ := decode_of_sync_pattern k e 0 0xFF Config.marker0 hk
    rw [hdecode, (byte_and_ones _).symm.trans hdata]
    rfl
  · cases edge_of_step s t hstep with
    | syncHit0 h =>
      obtain ⟨hrst, hvalid⟩ := s.pins_of_accepts h.accepts
      exact ⟨h.code, hrst, hvalid, h.noError, h.data⟩
    | _ => simp [hm] at hmatched
  · obtain ⟨-, hacc, -⟩ := hw.cleared_in_sync hst
    exact ⟨hacc, hs.index_elsewhere (.inr hst)⟩

/-- Settles O18: in row 8 the comparison with MARKER0 fails, and its write of m is the value m has. -/
theorem otherFirstByteIsAMismatch : Obligations.OtherFirstByteIsAMismatch := by
  refine ⟨fun k e hk hdata => ?_, fun b s => rfl, fun b s hm => ?_⟩
  · rw [(decode_of_sync_pattern k e 0 0 0 hk).1]
    exact congrArg some (if_neg hdata)
  · exact congrArg (fun m => Host.Outcome.next { s with m := m }) hm.symm

/-- Settles O19: in row 10 the comparison with MARKER1 fails; 0x42 with m = 1 is neither a lock nor a first marker byte. -/
theorem otherSecondByteIsAMismatch : Obligations.OtherSecondByteIsAMismatch := by
  refine ⟨fun k e hk hdata => ?_, fun b s => rfl, fun s hst hm hrst hvalid herr hdata => ?_⟩
  · rw [(decode_of_sync_pattern k e 1 0 0 hk).1]
    exact congrArg some (if_neg hdata)
  · have hstep := step_of_sync_byte s _ (s.reads_in_sync hst hrst hvalid herr)
    rw [hdata, State.scanByte_of_no_lock _ _ (by simp)] at hstep
    exact ⟨_, hstep, s.passEdge_st.trans hst, by simp [hm]⟩

/-- Settles O20: row 9 is the comparison with MARKER1 that holds; the sum of the two markers is 0x008F, and LEN is busy. -/
theorem secondMarkerByteLocks : Obligations.SecondMarkerByteLocks := by
  refine ⟨fun k e hk => ?_, fun s => ⟨_, rfl, by rw [markerSum_eq]; rfl, rfl, rfl⟩⟩
  obtain ⟨hdecode, hdata⟩ := decode_of_sync_pattern k e 1 0xFF Config.marker1 hk
  rw [hdecode, (byte_and_ones _).symm.trans hdata]
  rfl

/-! ## Runs of bytes -/

/-- An edge of SYNC on a listed byte uses up its pins and the byte's slot. -/
theorem step_of_sync_slot (s : State) (p : HostPins) (hs : List HostPins) (b : Byte) (rest : List SourcePins)
    (hst : s.st = St.sync) (hrst : p.rst = false) :
    step { s with host := p :: hs, source := byteSlot b :: rest } =
      .next ({ s with host := hs, source := rest }.scanByte b) := by
  have hreads := State.reads_in_sync { s with host := p :: hs, source := byteSlot b :: rest } hst hrst rfl rfl
  have hpass := State.slotPasses_of_accepts _ hreads.accepts
  have hedge : { s with host := p :: hs, source := byteSlot b :: rest }.passEdge = { s with host := hs, source := rest } :=
    if_pos hpass
  rw [step_of_sync_byte _ _ hreads, hedge]
  rfl

/-- A 0x42 never locks, and it moves the match position on by one modulo 2 (R120, R122). -/
theorem State.scanByte_marker0 (s : State) : s.scanByte Config.marker0 = { s with m := s.m + 1 } := by
  rw [s.scanByte_of_no_lock _ (by simp)]
  rcases BitVec.eq_zero_or_eq_one s.m with hm | hm <;> simp [hm]

/-- A run of `k` bytes 0x42 leaves m at its parity for the byte that follows (R125). -/
theorem run_of_marker0_run_then_byte (s : State) (k : Nat) (hs : List HostPins) (b : Byte) (rest : List SourcePins)
    (hst : s.st = St.sync) (hrst : noReset hs) (hlen : hs.length = k + 1) :
    Host.Core.run core (k + 1) { s with
        host := hs ++ s.host, source := List.replicate k (byteSlot Config.marker0) ++ byteSlot b :: rest } =
      .next ({ s with source := rest, m := s.m + BitVec.ofNat 1 k }.scanByte b) := by
  induction k generalizing s hs with
  | zero =>
    obtain ⟨p, rfl⟩ := List.length_eq_one_iff.1 hlen
    rw [show s.m + BitVec.ofNat 1 0 = s.m from BitVec.add_zero s.m]
    exact run_succ _ _ _ (step_of_sync_slot s p s.host b rest hst (hrst p (by simp)))
  | succ k ih =>
    obtain ⟨p, hs, rfl⟩ := List.exists_cons_of_length_eq_add_one hlen
    obtain ⟨hp, hrest⟩ := List.forall_mem_cons.1 hrst
    have hfirst := step_of_sync_slot s p (hs ++ s.host) Config.marker0
      (List.replicate k (byteSlot Config.marker0) ++ byteSlot b :: rest) hst hp
    rw [State.scanByte_marker0] at hfirst
    have hparity : s.m + 1 + BitVec.ofNat 1 k = s.m + BitVec.ofNat 1 (k + 1) := by
      rw [BitVec.add_assoc, BitVec.add_comm 1, BitVec.ofNat_add]
      rfl
    rw [← hparity]
    exact (run_succ _ _ _ hfirst).trans (ih { s with m := s.m + 1 } hs hst hrest (Nat.succ.inj hlen))

/-- Settles O43: one byte does what `State.scanByte` says, and after a run of `k` bytes 0x42 from m = 0 the 0x4D finds m
at the parity of `k`. -/
theorem scanLocksAfterOddRunsOnly : Obligations.ScanLocksAfterOddRunsOnly := by
  refine ⟨fun s hst hacc herr => ?_, fun s k hs rest hst hm hrst hlen => ?_⟩
  · refine ⟨_, step_of_sync_byte s _ ⟨hacc, herr, rfl, hst⟩, ?_⟩
    by_cases hlock : s.m = 1 ∧ s.sourcePins.inData = Config.marker1
    · simp [State.scanByte, hlock]
    · rw [State.scanByte_of_no_lock _ _ (by simpa using hlock)]
      simpa [hst, and_comm] using hlock
  · refine ⟨_, run_of_marker0_run_then_byte s k hs Config.marker1 rest hst hrst hlen, ?_⟩
    rcases Nat.mod_two_eq_zero_or_one k with hk | hk
    · have hparity : s.m + BitVec.ofNat 1 k = 0 := by bv_omega
      rw [State.scanByte_of_no_lock _ _ (by simp [hparity])]
      simp [hk, hst]
    · have hparity : s.m + BitVec.ofNat 1 k = 1 := by bv_omega
      rw [State.scanByte_of_lock _ hparity]
      simp [hk]

/-- Settles O44: the pair is a run of one 0x42 with the 0x4D after it. -/
theorem anyMarkerPairLocksTheScan : Obligations.AnyMarkerPairLocksTheScan := by
  intro s h h' rest hst hm hrst
  have hparity : s.m + BitVec.ofNat 1 1 = 1 := by rw [hm]; rfl
  refine (run_of_marker0_run_then_byte s 1 [h, h'] Config.marker1 rest hst hrst rfl).trans ?_
  rw [State.scanByte_of_lock _ hparity, markerSum_eq]
  rfl

end Sys2Proof.Machine
end

section
/-! Noise before a frame (R126): what the scan makes of the noise, and the frame that follows. -/

namespace Sys2Proof.Machine

/-! ## The scan over noise -/

/-- Whether the byte before counts as a first marker byte after the bytes `bs`, none of which locks (R125). -/
def matchedAfter (matched : Bool) (bs : List Byte) : Bool :=
  bs.foldl (fun matched b => !matched && b == Config.marker0) matched

/-- The scan goes on behind noise that does not lock. -/
theorem scanFrom_after_noise (matched : Bool) (n : Nat) (noise : List Byte) (rs : List Response)
    (h : scanFrom matched n (byteResponses noise) = .short) :
    scanFrom matched n (byteResponses noise ++ rs) = scanFrom (matchedAfter matched noise) (n + noise.length) rs := by
  induction noise generalizing matched n with
  | nil => rfl
  | cons b noise ih =>
    simp only [byteResponses, List.map_cons, List.cons_append, scanFrom] at h ⊢
    split at h
    · cases h
    · next hlock =>
      rw [if_neg hlock]
      refine (ih _ _ h).trans ?_
      simp only [matchedAfter, List.foldl_cons, List.length_cons, Nat.add_assoc, Nat.add_comm 1]

/-- Noise that the scan locks behind holds no lock. -/
theorem scanFrom_short_of_lock_behind (matched : Bool) (n j : Nat) (noise : List Byte) (rs : List Response)
    (h : scanFrom matched n (byteResponses noise ++ rs) = .done () j) (hj : n + noise.length < j) :
    scanFrom matched n (byteResponses noise) = .short := by
  induction noise generalizing matched n with
  | nil => rfl
  | cons b noise ih =>
    simp only [byteResponses, List.map_cons, List.cons_append, scanFrom, List.length_cons] at h hj ⊢
    split at h
    · cases h
      omega
    · next hlock =>
      rw [if_neg hlock]
      exact ih _ _ h (by omega)

/-- Noise without 0x42 holds no lock. -/
theorem scanFrom_short_of_no_marker0 (n : Nat) (noise : List Byte) (h : Config.marker0 ∉ noise) :
    scanFrom false n (byteResponses noise) = .short := by
  induction noise generalizing n with
  | nil => rfl
  | cons b noise ih =>
    obtain ⟨hb, hnoise⟩ := List.ne_and_not_mem_of_not_mem_cons h
    have hfirst : scanFrom false n (byteResponses (b :: noise)) =
        scanFrom (b == Config.marker0) (n + 1) (byteResponses noise) := rfl
    rw [hfirst, beq_false_of_ne hb.symm]
    exact ih (n + 1) hnoise

/-- A byte at the end of the noise lengthens the trailing run of 0x42 or ends it. -/
theorem trailingRun_concat (noise : List Byte) (b : Byte) :
    trailingRun (noise ++ [b]) = if b = Config.marker0 then trailingRun noise + 1 else 0 := by
  by_cases hb : b = Config.marker0 <;> simp [trailingRun, hb]

/-- Noise without 0x42 has no trailing run. -/
theorem trailingRun_of_no_marker0 (noise : List Byte) (h : Config.marker0 ∉ noise) : trailingRun noise = 0 := by
  rcases List.eq_nil_or_concat noise with rfl | ⟨front, b, rfl⟩
  · rfl
  · have hb : b ≠ Config.marker0 := fun hb => h (by simp [hb])
    rw [List.concat_eq_append, trailingRun_concat, if_neg hb]

/-- After noise a 0x42 counts as matched exactly when the trailing run is odd (R125). -/
theorem matchedAfter_eq_odd_run (noise : List Byte) : matchedAfter false noise = decide (trailingRun noise % 2 = 1) := by
  induction noise using List.reverseRecOn with
  | nil => rfl
  | append_singleton noise b ih =>
    have hlast : matchedAfter false (noise ++ [b]) = (!matchedAfter false noise && b == Config.marker0) := by
      simp [matchedAfter]
    rw [hlast, ih, trailingRun_concat]
    by_cases hb : b = Config.marker0
    · rcases Nat.mod_two_eq_zero_or_one (trailingRun noise) with hrun | hrun <;> simp [hb, Nat.add_mod, hrun]
    · simp [hb]

/-- Two markers met behind the noise lock exactly when no 0x42 before them counts. -/
theorem scanFrom_markers (matched : Bool) (n : Nat) (rs : List Response) :
    scanFrom matched n (byteResponses [Config.marker0, Config.marker1] ++ rs) = .done () (n + 2) ↔ matched = false := by
  cases matched with
  | false => exact ⟨fun _ => rfl, fun _ => rfl⟩
  | true =>
    refine ⟨fun h => ?_, nofun⟩
    have hlater : scanFrom false (n + 2) rs = .done () (n + 2) := h
    obtain ⟨bs, noise, -, -, hlen, hmarkers⟩ := scanFrom_done _ _ _ _ hlater
    have hmore : bs = noise ++ [Config.marker0, Config.marker1] := hmarkers
    simp [hmore] at hlen

/-- The scan locks at the markers that directly follow the noise exactly when the noise neither locks nor masks them
(R126). -/
theorem scanFrom_locks_behind_noise_iff (noise : List Byte) (rs : List Response) :
    scanFrom false 0 (byteResponses noise ++ (byteResponses [Config.marker0, Config.marker1] ++ rs)) =
        .done () (noise.length + 2) ↔
      scanFrom false 0 (byteResponses noise) = .short ∧ trailingRun noise % 2 = 0 := by
  have hmarkers (hshort : scanFrom false 0 (byteResponses noise) = .short) :
      scanFrom false 0 (byteResponses noise ++ (byteResponses [Config.marker0, Config.marker1] ++ rs)) =
        .done () (noise.length + 2) ↔ trailingRun noise % 2 = 0 := by
    rw [scanFrom_after_noise _ _ _ _ hshort, Nat.zero_add, scanFrom_markers, matchedAfter_eq_odd_run]
    simp
  refine ⟨fun h => ?_, fun ⟨hshort, heven⟩ => (hmarkers hshort).2 heven⟩
  have hshort := scanFrom_short_of_lock_behind _ _ _ _ _ h (by omega)
  exact ⟨hshort, (hmarkers hshort).1 h⟩

/-! ## The frame behind the lock -/

/-- A phase whose bytes come reads them. -/
theorem takeBytes_of_bytes (k n : Nat) (bs : List Byte) (rs rest : List Response) (hlen : bs.length = k)
    (h : rs = byteResponses bs ++ rest) : takeBytes k n rs = .done bs (n + k) := by
  subst hlen h
  induction bs generalizing n with
  | nil => rfl
  | cons b bs ih =>
    have htail : takeBytes bs.length (n + 1) (bs.map Response.byte ++ rest) = .done bs (n + 1 + bs.length) := ih (n + 1)
    simp only [byteResponses, List.map_cons, List.cons_append, List.length_cons, takeBytes, htail, Nat.add_assoc,
      Nat.add_comm 1]

/-- The trailer of a well-formed frame has the value of the frame's sum (R70). -/
theorem pairValue_frameTrailer (p : List Byte) : pairValue (frameTrailer p) = frameSum p := by
  have hsum : frameSum p < 65536 := Nat.mod_lt _ (by decide)
  simp only [frameTrailer, pairValue, BitVec.toNat_ofNat]
  omega

/-- The trailer of a well-formed frame ends the transaction OK (R184, R220). -/
theorem trailerPhase_of_frame (p : List Byte) (n : Nat) (rs rest : List Response)
    (h : rs.drop n = byteResponses (frameTrailer p) ++ rest) :
    trailerPhase p n rs = some (.ok (parsePayload p), n + 2) := by
  simp [trailerPhase, takeBytes_of_bytes 2 n _ _ _ rfl h, pairValue_frameTrailer]

/-- A payload with the trailer of a well-formed frame ends OK (R160, R161, R220). -/
theorem payloadPhase_of_frame (p : List Byte) (n : Nat) (rs rest : List Response) (hp : p.length = 26)
    (h : rs.drop n = byteResponses p ++ (byteResponses (frameTrailer p) ++ rest)) :
    payloadPhase n rs = some (.ok (parsePayload p), n + 28) := by
  have htrailer := drop_byteResponses _ _ _ _ h
  rw [hp] at htrailer
  simp [payloadPhase, takeBytes_of_bytes 26 n _ _ _ hp h, trailerPhase_of_frame p _ rs rest htrailer]

/-- The length 28 with the rest of a well-formed frame ends OK (R141, R220). -/
theorem lengthPhase_of_frame (p : List Byte) (n : Nat) (rs rest : List Response) (hp : p.length = 26)
    (h : rs.drop n = byteResponses ([0x00, 0x1C] ++ (p ++ frameTrailer p)) ++ rest) :
    lengthPhase n rs = some (.ok (parsePayload p), n + 30) := by
  simp only [byteResponses_append, List.append_assoc] at h
  have hpayload := drop_byteResponses _ _ _ _ h
  simp [lengthPhase, takeBytes_of_bytes 2 n _ _ _ rfl h, pairValue, payloadPhase_of_frame p (n + 2) rs rest hp hpayload]

/-! ## The transaction -/

/-- A transaction whose scan locks goes on with the length (R220). -/
theorem transaction_of_lock (rs : List Response) (j : Nat) (h : scanFrom false 0 rs = .done () j) :
    transaction rs = lengthPhase j rs := by
  rw [transaction, h]

/-- A transaction that ends OK locked 30 responses before its end (R220, R221). -/
theorem scanFrom_of_transaction_ok (rs : List Response) (f : Measurement) (j : Nat)
    (h : transaction rs = some (.ok f, j + 30)) : scanFrom false 0 rs = .done () j := by
  cases hscan : scanFrom false 0 rs with
  | short => simp [transaction, hscan] at h
  | failed e i => simp [transaction, hscan] at h
  | done a i =>
    rw [transaction_of_lock rs i hscan] at h
    obtain ⟨-, -, -, -, hend, -⟩ := lengthPhase_ok _ _ _ _ h
    rw [Nat.add_right_cancel hend]

/-- A frame behind noise is the one decoded exactly when the noise holds no lock and its trailing run is even (R126). -/
theorem transaction_of_noise_and_frame_iff (noise p : List Byte) (rest : List Response) (hp : p.length = 26) :
    transaction (byteResponses noise ++ byteResponses (frameBytes p) ++ rest) =
        some (.ok (parsePayload p), noise.length + 32) ↔
      scanFrom false 0 (byteResponses noise) = .short ∧ trailingRun noise % 2 = 0 := by
  have hframe : byteResponses noise ++ byteResponses (frameBytes p) ++ rest =
      byteResponses noise ++ (byteResponses [Config.marker0, Config.marker1] ++
        (byteResponses ([0x00, 0x1C] ++ (p ++ frameTrailer p)) ++ rest)) := by
    rw [frameBytes_eq, byteResponses_append [_, _], List.append_assoc, List.append_assoc]
  rw [hframe, ← scanFrom_locks_behind_noise_iff]
  refine ⟨scanFrom_of_transaction_ok _ _ _, fun hlock => ?_⟩
  rw [transaction_of_lock _ _ hlock]
  refine lengthPhase_of_frame p _ _ rest hp ?_
  rw [← List.append_assoc, ← byteResponses_append]
  exact List.drop_left' (by simp [byteResponses])

/-- Settles O48: the first clause is `transaction_of_noise_and_frame_iff`, and noise without 0x42 meets its condition. -/
theorem frameAfterNoiseIsDecodedExactlyWhenUnmasked : Obligations.FrameAfterNoiseIsDecodedExactlyWhenUnmasked := by
  intro noise p rest hp
  have hdecoded := transaction_of_noise_and_frame_iff noise p rest hp
  refine ⟨hdecoded, fun hnoise => hdecoded.2 ⟨scanFrom_short_of_no_marker0 0 noise hnoise, ?_⟩⟩
  rw [trailingRun_of_no_marker0 noise hnoise]

end Sys2Proof.Machine
end

section
/-! The length field (R140, R141). -/

namespace Sys2Proof.Machine

/-! ## The choice of a row that fixes idx -/

/-- The rows of a byte in LEN, PAY or CHK that fix idx (R75) fix rst, st, in_valid and in_is_err beside it: R76 chooses from
these, and the byte is the operand. -/
theorem decode_of_indexed_pattern (k : Key) (e : SerialErr) (st : BitVec 3) (idx : BitVec 5)
    (h : k &&& Key.pack true 7 0 31 false true true 0 = Key.pack false st 0 idx false true false 0) :
    decode k e = some (transitionFor false st k.m idx k.start true false k.inData e) := by
  rw [← Key.pack_fields k, Key.pack_and, Key.pack_inj] at h
  obtain ⟨hrst, hst, -, hidx, -, hvalid, herr, -⟩ := h
  rw [Bool.and_true] at hrst hvalid herr
  have hst : k.st = st := (code_and_ones k.st).symm.trans hst
  have hidx : k.idx = idx := (index_and_ones k.idx).symm.trans hidx
  rw [decode_eq_transitionFor, hrst, hst, hidx, hvalid, herr]

/-! ## The operand, the comparison and the outputs -/

/-- Replacing the high byte is concatenation with the low one. -/
theorem setHi_eq_append (v : Half) (b : Byte) : setHi v b = b ++ v.extractLsb' 0 8 := pair_eq_append _ _

/-- Replacing the low byte is concatenation with the high one. -/
theorem setLo_eq_append (v : Half) (b : Byte) : setLo v b = hiByte v ++ b := pair_eq_append _ _

/-- The comparison of all 16 bits is a comparison of exact values (R71, R141). -/
theorem setLo_eq_expected_iff (v : Half) (b : Byte) : setLo v b = 28 ↔ (hiByte v).toNat * 256 + b.toNat = 28 := by
  rw [← BitVec.toNat_inj, setLo_toNat]
  rfl

/-- After INVALID_LENGTH the outputs show the length and nothing else (R33, R35). -/
theorem State.outputs_of_invalidLength (s : State) : (s.endTransaction .invalidLength).outputs =
    { State.reset.outputs with resValid := true, resKind := 0b01#2, resLen := s.len } := rfl

/-! ## The two rows -/

/-- Settles O21: row 11 fixes LEN and idx = 0, and LEN.HI writes without a comparison. -/
theorem highLengthByteIsStoredAndSummed : Obligations.HighLengthByteIsStoredAndSummed := by
  refine ⟨fun k e hk => decode_of_indexed_pattern k e St.len 0 hk, fun b s => ?_⟩
  rw [← setHi_eq_append, ← addByte_eq_ofNat]
  rfl

/-- Settles O22: row 12 fixes LEN and idx = 1; the two outcomes of LEN.LO are those of the comparison of exact values. -/
theorem lowLengthByteIsCheckedAgainst28 : Obligations.LowLengthByteIsCheckedAgainst28 := by
  refine ⟨fun k e hk => decode_of_indexed_pattern k e St.len 1 hk, fun b s h => ?_, fun b s h => ?_⟩
  · have hlen : setLo s.len b = 28 := (setLo_eq_expected_iff s.len b).2 h
    obtain ⟨-, ho⟩ := (execLenLo_cases b s).resolve_right fun hbad => hbad.1 hlen
    rw [hlen] at ho
    rw [← addByte_eq_ofNat]
    exact ho
  · have hlen : setLo s.len b ≠ 28 := mt (setLo_eq_expected_iff s.len b).1 h
    obtain ⟨-, ho⟩ := (execLenLo_cases b s).resolve_left fun hok => hlen hok.1
    rw [← setLo_eq_append, ← addByte_eq_ofNat]
    exact ⟨_, ho, rfl, State.outputs_of_invalidLength _⟩

end Sys2Proof.Machine
end

section
/-! Payload capture (R160, R161). -/

namespace Sys2Proof.Machine

/-- Row 14 fixes PAY with a byte presented (R75); below index 25 the key is one of PAY.BYTE. -/
theorem decode_of_payByte_pattern (k : Key) (e : SerialErr) (h : k &&& 0x1E0300#21 = 0x060200#21)
    (hidx : k.idx.toNat ≤ 24) : decode k e = some (.payByte k.idx k.inData) := by
  have hfits := fits_fields_of_masked_eq _ _ _ h
  obtain ⟨⟨⟨hrst, hst⟩, hvalid⟩, herr⟩ :
      ((k.rst = false ∧ k.st = St.pay) ∧ k.inValid = true) ∧ k.inIsErr = false := by simpa using hfits
  rw [← Key.pack_fields k, hrst, hst, hvalid, herr, decode_payByte _ _ _ _ _ hidx, Key.idx_pack, Key.inData_pack]

/-- The buffer after a write at a buffer address: the byte there, every other entry as before (R53). -/
theorem State.bufByte_write (s : State) (hs : s.buf.wf) (i : Nat) (b : Byte) (hi : i < Config.payloadLen) :
    { s with buf := s.buf.writeByte i b }.bufByte i = b ∧
      ∀ a, a ≠ i → { s with buf := s.buf.writeByte i b }.bufByte a = s.bufByte a := by
  obtain ⟨-, -, hbyte, hother⟩ := s.storeBuf_spec _ i b hs (s.storeBuf_inside i b hi)
  exact ⟨hbyte, hother⟩

/-- Settles O23: row 14 is PAY.BYTE below index 25, where its index is a buffer address; `State.bufByte_write` is its store. -/
theorem payloadByteIsStoredAndSummed : Obligations.PayloadByteIsStoredAndSummed := by
  refine ⟨decode_of_payByte_pattern, fun i b s hle hs => ?_⟩
  have hi : i.toNat < Config.payloadLen := Nat.lt_of_le_of_lt hle (by decide)
  have hnext : BitVec.ofNat 5 (i.toNat + 1) = i + 1 := by simp [BitVec.ofNat_add]
  obtain ⟨hbyte, hother⟩ := s.bufByte_write hs i.toNat b hi
  rw [← addByte_eq_ofNat, hnext]
  exact ⟨_, exec_payByte_inside i b s hi, rfl, hbyte, hother⟩

/-- Settles O25: row 13 fixes PAY and idx = 25, which is a buffer address above every field. -/
theorem lastPayloadByteLeadsToTheTrailer : Obligations.LastPayloadByteLeadsToTheTrailer := by
  refine ⟨fun k e hk => decode_of_indexed_pattern k e St.pay 25 hk, fun b s hs => ?_⟩
  obtain ⟨hbyte, hother⟩ := s.bufByte_write hs 25 b (by decide)
  rw [← addByte_eq_ofNat]
  exact ⟨_, exec_payLast b s, rfl, hbyte, hother, parse_writeByte s.buf hs 25 b (by decide)⟩

end Sys2Proof.Machine
end

section
/-! The law of the working registers (R24 to R27, R180, R186): it holds after reset, and every edge keeps it. -/

namespace Sys2Proof.Machine

/-! ## Sums of payload bytes -/

/-- The sum of one more payload byte. -/
theorem Memory.sum_succ (buf : Memory) (n : Nat) : buf.sum (n + 1) = buf.sum n + (buf.readByte n).toNat := by
  simp [Memory.sum, List.range_succ]

/-- A byte stored at address `n` adds itself to the sum of the bytes before it, which it leaves alone. -/
theorem Memory.sum_writeByte (buf : Memory) (h : buf.wf) (n : Nat) (b : Byte) :
    (buf.writeByte n b).sum (n + 1) = buf.sum n + b.toNat := by
  have hbelow : (buf.writeByte n b).sum n = buf.sum n := by
    refine congrArg List.sum (List.map_congr_left fun i hi => ?_)
    rw [buf.readByte_writeByte h, if_neg (List.mem_range.1 hi).ne]
  rw [Memory.sum_succ, hbelow, buf.readByte_writeByte h, if_pos rfl]

/-- Each byte adds at most 255 (R182). -/
theorem Memory.sum_le (buf : Memory) (n : Nat) : buf.sum n ≤ 255 * n := by
  induction n with
  | zero => exact Nat.le_refl 0
  | succ n ih =>
    have hbyte := (buf.readByte n).isLt
    rw [Memory.sum_succ]
    omega

/-- Before the first payload byte the checksum is that of the marker and the length 28 (R180). -/
theorem Memory.checksum_zero (buf : Memory) : buf.checksum 0 = 0xAB := rfl

/-- At the comparison the sum is too small to be reduced (R182). -/
theorem Memory.checksum_eq (buf : Memory) : buf.checksum 26 = 0xAB + buf.sum 26 := by
  have hsum := buf.sum_le 26
  exact Nat.mod_eq_of_lt (by omega)

/-- The accumulator follows the checksum when a payload byte is stored and added (R160, R180). -/
theorem addByte_checksum (buf : Memory) (h : buf.wf) (n : Nat) (acc : Half) (b : Byte)
    (hacc : acc.toNat = buf.checksum n) : (addByte acc b).toNat = (buf.writeByte n b).checksum (n + 1) := by
  rw [addByte_toNat, hacc, Memory.checksum, Memory.checksum, buf.sum_writeByte h, Nat.mod_add_mod, Nat.add_assoc]

/-! ## The two length bytes -/

/-- The value of a register whose high byte is replaced. -/
theorem setHi_toNat (v : Half) (b : Byte) : (setHi v b).toNat = b.toNat * 256 + v.toNat % 256 := by
  rw [setHi, pair_toNat, loByte_toNat]

/-- The high length byte is the high half of the length and is added to the marker (R140). -/
theorem length_and_sum_after_lenHi (len acc : Half) (b : Byte) (hlen : len = 0) (hacc : acc.toNat = 0x42 + 0x4D) :
    (setHi len b).toNat % 256 = 0 ∧ (addByte acc b).toNat = 0x42 + 0x4D + (setHi len b).toNat / 256 := by
  have hb := b.isLt
  have hhigh : (setHi len b).toNat = b.toNat * 256 := by simp [setHi_toNat, hlen]
  rw [addByte_toNat, hacc, hhigh]
  omega

/-- A length of 28 was received as the bytes 0x00 and 0x1C, so the sum is that before the payload (R141, R180). -/
theorem sum_after_lenLo (len acc : Half) (b : Byte) (hacc : acc.toNat = 0x42 + 0x4D + len.toNat / 256)
    (hok : setLo len b = 28) : (addByte acc b).toNat = 0xAB := by
  have hvalue := (setLo_eq_expected_iff len b).1 hok
  rw [hiByte_toNat] at hvalue
  rw [addByte_toNat, hacc]
  omega

/-! ## The law from the point of the transaction -/

/-- What the working registers of a busy state hold at each point of its transaction (R100, R123, R140, R180). -/
inductive State.Progress (s : State) : Prop
  | sync (hst : s.st = St.sync) (hclear : s.len = 0 ∧ s.acc = 0 ∧ s.buf = [] ∧ s.trl = 0 ∧ s.serr = 0)
  | lenHi (hst : s.st = St.len) (hidx : s.idx = 0) (h : s.len = 0 ∧ s.acc.toNat = 0x42 + 0x4D)
  | lenLo (hst : s.st = St.len) (hidx : s.idx = 1)
      (h : s.len.toNat % 256 = 0 ∧ s.acc.toNat = 0x42 + 0x4D + s.len.toNat / 256)
  | pay (hst : s.st = St.pay) (h : s.len = 28 ∧ s.acc.toNat = s.buf.checksum s.idx.toNat)
  | chk (hst : s.st = St.chk) (h : s.len = 28 ∧ s.acc.toNat = s.buf.checksum 26)

/-- A busy state without a result meets the law when its registers fit the point of its transaction. -/
theorem State.work_of_busy (s : State) (hprogress : s.Progress) (hrv : s.rv = false) : s.Work := by
  cases hprogress <;> constructor <;> simp [*]

/-- An idle state meets the law when its registers fit the result it holds. -/
theorem State.work_of_idle (s : State) (hst : s.idle)
    (hok : s.rv = true → s.rk = .ok → s.len = 28 ∧ s.acc.toNat = s.buf.checksum 26 ∧ s.trl = s.acc)
    (hbadLen : s.rv = true → s.rk = .invalidLength → s.len ≠ 28)
    (hbadData : s.rv = true → s.rk = .invalidData → s.len = 28 ∧ s.acc.toNat = s.buf.checksum 26 ∧ s.trl ≠ s.acc) :
    s.Work := by
  have hst : s.st = St.idle := hst
  refine ⟨?_, ?_, ?_, ?_, ?_, hok, hbadLen, hbadData⟩ <;> simp [hst]

theorem State.work_of_no_result (s : State) (hst : s.idle) (hrv : s.rv = false) : s.Work := by
  apply s.work_of_idle hst <;> simp [hrv]

theorem State.work_passEdge (s : State) (hs : s.Work) : s.passEdge.Work := by
  obtain ⟨h1, h2, h3, h4, h5, h6, h7, h8⟩ := hs
  constructor <;> simpa

/-! ## Every edge keeps the law -/

/-- Every edge keeps the law of the working registers. -/
theorem State.Edge.keeps_work {s t : State} (h : s.Edge t) (hs : s.Inv) (hwork : s.Work) : t.Work := by
  have hnext : s.passEdge.Work := s.work_passEdge hwork
  have hst {c b} (h : s.Reads c b) : s.passEdge.st = c := by simpa using h.code
  have hrv {c b} (h : s.Reads c b) : s.passEdge.rv = false := by
    simpa using (hs.no_result (s.busy_of_accepts h.accepts)).1
  have hbuf : s.passEdge.buf.wf := by simpa using hs.buffer_canonical
  have hidxEq : s.passEdge.idx = s.idx := s.passEdge_idx
  cases h with
  | reset => exact State.work_of_no_result _ rfl rfl
  | illegal => exact State.work_of_no_result _ rfl rfl
  | idleStart => exact State.work_of_busy _ (.sync rfl ⟨rfl, rfl, rfl, rfl, rfl⟩) rfl
  | idleHold => exact hnext
  | busyWait => exact hnext
  | busySerr => exact State.work_of_idle _ rfl nofun nofun nofun
  | syncHit0 h => exact State.work_of_busy _ (.sync (hst h) (hnext.cleared_in_sync (hst h))) (hrv h)
  | syncMiss0 h => exact State.work_of_busy _ (.sync (hst h) (hnext.cleared_in_sync (hst h))) (hrv h)
  | syncHit1 h =>
    obtain ⟨hlen, -⟩ := hnext.cleared_in_sync (hst h)
    exact State.work_of_busy _ (.lenHi rfl rfl ⟨hlen, rfl⟩) (hrv h)
  | syncMiss1 h => exact State.work_of_busy _ (.sync (hst h) (hnext.cleared_in_sync (hst h))) (hrv h)
  | lenHi h hidx =>
    obtain ⟨hlen, hacc⟩ := hnext.before_len_hi (hst h) (hidxEq.trans hidx)
    exact State.work_of_busy _ (.lenLo (hst h) rfl (length_and_sum_after_lenHi _ _ _ hlen hacc)) (hrv h)
  | lenLoOk h hidx hok =>
    rw [← s.passEdge_len] at hok
    obtain ⟨-, hacc⟩ := hnext.before_len_lo (hst h) (hidxEq.trans hidx)
    exact State.work_of_busy _ (.pay rfl ⟨hok, (sum_after_lenLo _ _ _ hacc hok).trans (Memory.checksum_zero _).symm⟩) (hrv h)
  | lenLoBad h hidx hbad =>
    rw [← s.passEdge_len] at hbad
    exact State.work_of_idle _ rfl nofun (fun _ _ => hbad) nofun
  | @payByte b h hle =>
    obtain ⟨hlen, hacc⟩ := hnext.in_pay (hst h)
    have hsucc : (s.idx + 1).toNat = s.idx.toNat + 1 := by bv_omega
    have hsum := addByte_checksum _ hbuf _ _ b hacc
    rw [hidxEq, ← hsucc] at hsum
    exact State.work_of_busy _ (.pay (hst h) ⟨hlen, hsum⟩) (hrv h)
  | payLast h hidx =>
    obtain ⟨hlen, hacc⟩ := hnext.in_pay (hst h)
    rw [hidxEq, hidx] at hacc
    exact State.work_of_busy _ (.chk rfl ⟨hlen, addByte_checksum _ hbuf _ _ _ hacc⟩) (hrv h)
  | chkHi h => exact State.work_of_busy _ (.chk (hst h) (hnext.in_chk (hst h))) (hrv h)
  | chkLoOk h hidx hsum =>
    rw [← s.passEdge_trl, ← s.passEdge_acc] at hsum
    obtain ⟨hlen, hacc⟩ := hnext.in_chk (hst h)
    exact State.work_of_idle _ rfl (fun _ _ => ⟨hlen, hacc, hsum⟩) nofun nofun
  | chkLoBad h hidx hsum =>
    rw [← s.passEdge_trl, ← s.passEdge_acc] at hsum
    obtain ⟨hlen, hacc⟩ := hnext.in_chk (hst h)
    exact State.work_of_idle _ rfl nofun nofun fun _ _ => ⟨hlen, hacc, hsum⟩

/-- Settles O39: the next state is one of the cases of `State.Edge`, and each keeps the law. -/
theorem everyEdgeKeepsTheAccumulatorLaw : Obligations.EveryEdgeKeepsTheAccumulatorLaw :=
  fun s t hs hwork h => (edge_of_step s t h).keeps_work hs hwork

/-- Settles O38: after reset the core is idle without a result (R41). -/
theorem resetStateMeetsTheAccumulatorLaw : Obligations.ResetStateMeetsTheAccumulatorLaw :=
  State.work_of_no_result _ rfl rfl

end Sys2Proof.Machine
end

section
/-! The checksum trailer (R182 to R184). -/

namespace Sys2Proof.Machine

/-! ## What a transaction that reads its trailer consumes -/

/-- A trailer without a hard error is 2 responses (R183, R184). -/
theorem trailerPhase_consumes (p : List Byte) (n m : Nat) (rs : List Response) (r : Result)
    (h : trailerPhase p n rs = some (r, m)) (hserial : ∀ e, r ≠ .serial e) : m = n + 2 := by
  unfold trailerPhase at h
  split at h
  · cases h
  · cases h
    exact absurd rfl (hserial _)
  · next t n' ht =>
    obtain ⟨-, hn, -⟩ := takeBytes_done _ _ _ _ _ ht
    split at h <;> cases h <;> exact hn

/-- A payload and a trailer without a hard error are 28 responses (R160, R161). -/
theorem payloadPhase_consumes (n m : Nat) (rs : List Response) (r : Result)
    (h : payloadPhase n rs = some (r, m)) (hserial : ∀ e, r ≠ .serial e) : m = n + 28 := by
  unfold payloadPhase at h
  split at h
  · cases h
  · cases h
    exact absurd rfl (hserial _)
  · next p n' hp =>
    obtain ⟨-, rfl, -⟩ := takeBytes_done _ _ _ _ _ hp
    exact trailerPhase_consumes _ _ _ _ _ h hserial

/-- A transaction that is not ended by a hard error or a bad length consumes 30 responses after the lock (R221). -/
theorem lengthPhase_consumes (n m : Nat) (rs : List Response) (r : Result)
    (h : lengthPhase n rs = some (r, m)) (hserial : ∀ e, r ≠ .serial e) (hlength : ∀ v, r ≠ .invalidLength v) :
    m = n + 30 := by
  unfold lengthPhase at h
  split at h
  · cases h
  · cases h
    exact absurd rfl (hserial _)
  · next l n' hl =>
    obtain ⟨-, rfl, -⟩ := takeBytes_done _ _ _ _ _ hl
    split at h
    · exact payloadPhase_consumes _ _ _ _ h hserial
    · cases h
      exact absurd rfl (hlength _)

/-- A scan that locks has read the noise and the two markers (R125, R126). -/
theorem scanFrom_reads_markers (rs : List Response) (j : Nat) (h : scanFrom false 0 rs = .done () j) :
    ∃ noise : Nat, j = noise + 2 := by
  obtain ⟨bs, noise, -, -, hj, hmarkers⟩ := scanFrom_done _ _ _ _ h
  obtain rfl : bs = noise ++ [Config.marker0, Config.marker1] := hmarkers
  exact ⟨noise.length, by simpa using hj⟩

/-- A transaction that is not ended by a hard error or a bad length consumes 32 responses after the noise (R221). -/
theorem transaction_consumes (rs : List Response) (r : Result) (n : Nat) (h : transaction rs = some (r, n))
    (hserial : ∀ e, r ≠ .serial e) (hlength : ∀ v, r ≠ .invalidLength v) :
    ∃ noise : Nat, scanFrom false 0 rs = .done () (noise + 2) ∧ n = noise + 32 := by
  cases hscan : scanFrom false 0 rs with
  | short => simp [transaction, hscan] at h
  | failed e i =>
    obtain ⟨rfl, -⟩ : Result.serial e = r ∧ i = n := by simpa [transaction, hscan] using h
    exact absurd rfl (hserial e)
  | done a j =>
    rw [transaction_of_lock rs j hscan] at h
    obtain ⟨noise, rfl⟩ := scanFrom_reads_markers rs j hscan
    exact ⟨noise, rfl, lengthPhase_consumes _ _ _ _ h hserial hlength⟩

/-! ## The comparison and the outputs -/

/-- The comparison of all 16 bits is a comparison of exact values (R71, R184). -/
theorem setLo_eq_iff (v w : Half) (b : Byte) : setLo v b = w ↔ (hiByte v).toNat * 256 + b.toNat = w.toNat := by
  rw [← BitVec.toNat_inj, setLo_toNat]

/-- CHK.LO with the sum as the trailer completes OK (R184). -/
theorem exec_chkLo_of_eq (b : Byte) (s : State) (h : setLo s.trl b = s.acc) :
    exec (.chkLo b) s = .next ({ s with trl := s.acc }.endTransaction .ok) := by
  obtain ⟨-, ho⟩ := (execChkLo_cases b s).resolve_right fun hbad => hbad.1 h
  rw [h] at ho
  exact ho

/-- CHK.LO with another trailer raises InvalidData (R184). -/
theorem exec_chkLo_of_ne (b : Byte) (s : State) (h : setLo s.trl b ≠ s.acc) :
    exec (.chkLo b) s = .next ({ s with trl := setLo s.trl b }.endTransaction .invalidData) :=
  ((execChkLo_cases b s).resolve_left fun hok => h hok.1).2

/-- After OK the outputs show the twelve fields and nothing else (R33, R35). -/
theorem State.outputs_of_ok (s : State) : (s.endTransaction .ok).outputs =
    { State.reset.outputs with resValid := true, resKind := 0b00#2, res := parse s.buf } := rfl

/-- After INVALID_DATA the outputs show the sum and the trailer and nothing else (R33, R35). -/
theorem State.outputs_of_invalidData (s : State) : (s.endTransaction .invalidData).outputs =
    { State.reset.outputs with
      resValid := true, resKind := 0b10#2, resChkComputed := s.acc, resChkTrailer := s.trl } := rfl

/-! ## The two rows -/

/-- Settles O26: row 15 fixes CHK and idx = 0, and CHK.HI writes trl and idx alone. -/
theorem highTrailerByteIsNotSummed : Obligations.HighTrailerByteIsNotSummed := by
  refine ⟨fun k e hk => decode_of_indexed_pattern k e St.chk 0 hk, fun b s => ?_⟩
  rw [← setHi_eq_append]
  rfl

/-- Settles O27: row 16 fixes CHK and idx = 1; the two outcomes of CHK.LO are those of the comparison of exact values; and
a result of the comparison is neither a hard error nor a bad length. -/
theorem lowTrailerByteDecidesTheResult : Obligations.LowTrailerByteDecidesTheResult := by
  refine ⟨fun k e hk => decode_of_indexed_pattern k e St.chk 1 hk, fun b s h => ?_, fun b s h => ?_,
    fun rs r n h hr => ?_⟩
  · have hsum : setLo s.trl b = s.acc := (setLo_eq_iff s.trl s.acc b).2 h
    exact ⟨_, exec_chkLo_of_eq b s hsum, rfl, fun _ => rfl, State.outputs_of_ok _⟩
  · have hsum : setLo s.trl b ≠ s.acc := mt (setLo_eq_iff s.trl s.acc b).1 h
    rw [← setLo_eq_append]
    exact ⟨_, exec_chkLo_of_ne b s hsum, rfl, State.outputs_of_invalidData _⟩
  · obtain ⟨f, rfl⟩ | ⟨c, v, rfl⟩ := hr <;> exact transaction_consumes rs _ n h nofun nofun

/-- Settles O40: the law of CHK with `Memory.checksum_eq` gives the sum and its range, and a trailer outside the range is
not the sum. -/
theorem sumAtTheComparisonIsInRange : Obligations.SumAtTheComparisonIsInRange := by
  intro s _ hwork hst
  obtain ⟨hlen, hacc⟩ := hwork.in_chk hst
  rw [Memory.checksum_eq] at hacc
  have hbound := s.buf.sum_le 26
  refine ⟨hlen, hacc, by omega, by omega, fun b hout => ?_⟩
  have hsum : setLo s.trl b ≠ s.acc := by
    intro heq
    have hvalue : (pair (hiByte s.trl) b).toNat = s.acc.toNat := congrArg BitVec.toNat heq
    omega
  exact ⟨_, exec_chkLo_of_ne b s hsum, rfl, rfl⟩

end Sys2Proof.Machine
end

section
/-! The extractor's layout (R201, R203), and how long an idle core shows its result (R204, R407). -/

namespace Sys2Proof.Machine

/-! ## The fields at their offsets -/

/-- A field is the unscaled big-endian value of its two bytes (R200, R203). -/
theorem Memory.field_toNat (buf : Memory) (k : Nat) :
    (buf.field k).toNat = (buf.readByte (2 * k)).toNat * 256 + (buf.readByte (2 * k + 1)).toNat := pair_toNat _ _

/-- An OK result shows the parsed buffer (R35). -/
theorem State.outputs_res_of_ok (s : State) (hrv : s.rv = true) (hrk : s.rk = .ok) : s.outputs.res = parse s.buf :=
  if_pos (by simp [State.shows, hrv, hrk])

/-- Settles O31: an OK result shows the parsed buffer, whose field `k` is the value of the pair at `2 * k`. -/
theorem fieldsSitAtTheirOffsets : Obligations.FieldsSitAtTheirOffsets := by
  intro s hrv hrk
  have hfield := s.buf.field_toNat
  rw [s.outputs_res_of_ok hrv hrk]
  exact ⟨hfield 0, hfield 1, hfield 2, hfield 3, hfield 4, hfield 5, hfield 6, hfield 7, hfield 8, hfield 9, hfield 10,
    hfield 11⟩

/-! ## Idle edges and their end -/

/-- Holding the source loses no response: at most an empty slot passes (R32, R104). -/
theorem State.responses_sourceIfHeld (s : State) : responses s.sourceIfHeld = responses s.source := by
  unfold State.sourceIfHeld
  split
  case isTrue => rfl
  case isFalse hvalid =>
    cases hsource : s.source with
    | nil => rfl
    | cons p rest => exact (responses_absent p rest (by simpa [State.sourcePins, hsource] using hvalid)).symm

/-- Over edges without rst and start an idle core keeps its outputs, its buffer and every response (R101, R204). -/
theorem run_of_idle_holds (s : State) (hs rest : List HostPins) (hst : s.idle) (hcmd : noCommand hs)
    (hhost : s.host = hs ++ rest) :
    ∃ t, Host.Core.run core hs.length s = .next t ∧
      t.outputs = s.outputs ∧ t.buf = s.buf ∧ t.host = rest ∧ responses t.source = responses s.source := by
  induction hs generalizing s with
  | nil => exact ⟨s, rfl, rfl, rfl, hhost, rfl⟩
  | cons p hs ih =>
    obtain ⟨⟨hrst, hstart⟩, hrest⟩ := List.forall_mem_cons.1 hcmd
    have hpins : s.hostPins = p := by rw [State.hostPins, hhost]; rfl
    obtain ⟨hstep, houtputs, hsource⟩ := idleEdgeHoldsEverything.2.2 s hst (hpins ▸ hrst) (hpins ▸ hstart)
    obtain ⟨t, hrun, htoutputs, htbuf, hthost, htsource⟩ :=
      ih s.passEdge (s.passEdge_st.trans hst) hrest (by rw [s.passEdge_host, hhost]; rfl)
    refine ⟨t, (run_succ _ _ _ hstep).trans hrun, htoutputs.trans houtputs, htbuf.trans s.passEdge_buf, hthost, ?_⟩
    rw [htsource, hsource, s.responses_sourceIfHeld]

/-- A reset edge gives every register its reset value (R400). -/
theorem step_of_rst (s : State) (hrst : s.hostPins.rst = true) : step s = .next s.passEdge.resetRegisters := by
  rw [step_eq_exec, hrst]
  rfl

/-- Settles O41: `run_of_idle_holds` is the hold; its end is a reset edge or the START of O13, after which no output shows a
result. -/
theorem resultIsHeldUntilStartOrReset : Obligations.ResultIsHeldUntilStartOrReset := by
  refine ⟨fun s hs hst hcmd => run_of_idle_holds { s with host := hs ++ s.host } hs s.host hst hcmd rfl,
    fun s hst hcmd => ?_⟩
  cases hrst : s.hostPins.rst with
  | true => exact ⟨_, step_of_rst s hrst, rfl, rfl⟩
  | false =>
    have hstart : s.hostPins.start = true := by simpa [hrst] using hcmd
    obtain ⟨t, hstep, -, -, houtputs⟩ := startBeginsAFreshTransaction.2.2 s hst hrst hstart
    exact ⟨t, hstep, congrArg Outputs.resValid houtputs, congrArg Outputs.res houtputs⟩

end Sys2Proof.Machine
end

section
/-! A transaction as a sequence of readings (R220, R221): what each phase consumes, and that nothing after it matters. -/

namespace Sys2Proof.Machine

/-! ## Readings that are followed by more of the transaction -/

/-- What the transaction function makes of a reading: no end yet, the end by a hard error, or what follows (R220). -/
def Reading.andThen {α : Type} (x : Reading α) (next : α → Nat → Option (Result × Nat)) : Option (Result × Nat) :=
  match x with
  | .short => none
  | .failed e n => some (.serial e, n)
  | .done a n => next a n

/-- The end that the two trailer bytes decide (R184). -/
def trailerResult (p trailer : List Byte) (n : Nat) : Option (Result × Nat) :=
  if pairValue trailer = frameSum p then some (.ok (parsePayload p), n)
  else some (.invalidData (BitVec.ofNat 16 (frameSum p)) (BitVec.ofNat 16 (pairValue trailer)), n)

/-- What the two length bytes decide: the payload follows, or the end (R141). -/
def lengthResult (rs : List Response) (len : List Byte) (n : Nat) : Option (Result × Nat) :=
  if pairValue len = 28 then payloadPhase n rs else some (.invalidLength (BitVec.ofNat 16 (pairValue len)), n)

theorem trailerPhase_eq (p : List Byte) (n : Nat) (rs : List Response) :
    trailerPhase p n rs = (takeBytes 2 n (rs.drop n)).andThen (trailerResult p) := by
  unfold trailerPhase
  cases takeBytes 2 n (rs.drop n) <;> rfl

theorem payloadPhase_eq (n : Nat) (rs : List Response) :
    payloadPhase n rs = (takeBytes 26 n (rs.drop n)).andThen fun p n' => trailerPhase p n' rs := by
  unfold payloadPhase
  cases takeBytes 26 n (rs.drop n) <;> rfl

theorem lengthPhase_eq (n : Nat) (rs : List Response) :
    lengthPhase n rs = (takeBytes 2 n (rs.drop n)).andThen (lengthResult rs) := by
  unfold lengthPhase
  cases takeBytes 2 n (rs.drop n) <;> rfl

theorem transaction_eq (rs : List Response) :
    transaction rs = (scanFrom false 0 rs).andThen fun _ j => lengthPhase j rs := by
  unfold transaction
  cases scanFrom false 0 rs <;> rfl

/-- A transaction ends by the hard error of a reading or by what follows the reading. -/
theorem Reading.andThen_eq_some {α : Type} (x : Reading α) (next : α → Nat → Option (Result × Nat))
    (r : Result) (m : Nat) (h : x.andThen next = some (r, m)) :
    (∃ e, x = .failed e m ∧ r = .serial e) ∨ ∃ a n, x = .done a n ∧ next a n = some (r, m) := by
  cases x with
  | short => cases h
  | failed e n => cases h; exact .inl ⟨e, rfl, rfl⟩
  | done a n => exact .inr ⟨a, n, rfl, h⟩

/-! ## Responses after the end do not matter -/

/-- A scan that is over does not look at more responses. -/
theorem scanFrom_append (matched : Bool) (n : Nat) (rs more : List Response) (h : scanFrom matched n rs ≠ .short) :
    scanFrom matched n (rs ++ more) = scanFrom matched n rs := by
  induction rs generalizing matched n with
  | nil => exact absurd rfl h
  | cons r rs ih =>
    cases r with
    | err e => rfl
    | byte b =>
      simp only [List.cons_append, scanFrom] at h ⊢
      split
      · rfl
      · next hlock => exact ih _ _ (by simpa [hlock] using h)

/-- A phase that is over does not look at more responses. -/
theorem takeBytes_append (k n : Nat) (rs more : List Response) (h : takeBytes k n rs ≠ .short) :
    takeBytes k n (rs ++ more) = takeBytes k n rs := by
  induction k generalizing n rs with
  | zero => rfl
  | succ k ih =>
    cases rs with
    | nil => exact absurd rfl h
    | cons r rs =>
      cases r with
      | err e => rfl
      | byte b =>
        have htail : takeBytes k (n + 1) rs ≠ .short := fun hshort => h (by simp [takeBytes, hshort])
        simp only [List.cons_append, takeBytes, ih _ _ htail]

/-- More responses leave an end as it is when they leave the reading and the end that follows it. -/
theorem Reading.andThen_of_more {α : Type} (x y : Reading α) (f g : α → Nat → Option (Result × Nat))
    (r : Result) (m : Nat) (hread : x ≠ .short → y = x) (hnext : ∀ a n, f a n = some (r, m) → g a n = some (r, m))
    (h : x.andThen f = some (r, m)) : y.andThen g = some (r, m) := by
  have hover : x ≠ .short := by rintro rfl; cases h
  rw [hread hover]
  cases x with
  | short => cases h
  | failed e n => exact h
  | done a n => exact hnext a n h

/-- The bytes a phase reads are the same ones with more responses behind them. -/
theorem takeBytes_drop_append (k n : Nat) (rs more : List Response) (h : takeBytes k n (rs.drop n) ≠ .short) :
    takeBytes k n ((rs ++ more).drop n) = takeBytes k n (rs.drop n) := by
  rw [List.drop_append, takeBytes_append _ _ _ _ h]

theorem trailerPhase_append (p : List Byte) (n m : Nat) (rs more : List Response) (r : Result)
    (h : trailerPhase p n rs = some (r, m)) : trailerPhase p n (rs ++ more) = some (r, m) := by
  rw [trailerPhase_eq] at h ⊢
  exact Reading.andThen_of_more _ _ _ _ r m (takeBytes_drop_append 2 n rs more) (fun _ _ => id) h

theorem payloadPhase_append (n m : Nat) (rs more : List Response) (r : Result)
    (h : payloadPhase n rs = some (r, m)) : payloadPhase n (rs ++ more) = some (r, m) := by
  rw [payloadPhase_eq] at h ⊢
  exact Reading.andThen_of_more _ _ _ _ r m (takeBytes_drop_append 26 n rs more)
    (fun p n' => trailerPhase_append p n' m rs more r) h

theorem lengthResult_append (len : List Byte) (n m : Nat) (rs more : List Response) (r : Result)
    (h : lengthResult rs len n = some (r, m)) : lengthResult (rs ++ more) len n = some (r, m) := by
  unfold lengthResult at h ⊢
  split
  · next hlen => exact payloadPhase_append n m rs more r (by simpa [hlen] using h)
  · next hlen => simpa [hlen] using h

theorem lengthPhase_append (n m : Nat) (rs more : List Response) (r : Result)
    (h : lengthPhase n rs = some (r, m)) : lengthPhase n (rs ++ more) = some (r, m) := by
  rw [lengthPhase_eq] at h ⊢
  exact Reading.andThen_of_more _ _ _ _ r m (takeBytes_drop_append 2 n rs more)
    (fun len n' => lengthResult_append len n' m rs more r) h

/-- No response after its end changes a transaction (R221). -/
theorem transaction_append (rs more : List Response) (r : Result) (m : Nat) (h : transaction rs = some (r, m)) :
    transaction (rs ++ more) = some (r, m) := by
  rw [transaction_eq] at h ⊢
  exact Reading.andThen_of_more _ _ _ _ r m (scanFrom_append false 0 rs more)
    (fun _ j => lengthPhase_append j m rs more r) h

/-! ## What is consumed up to the end -/

/-- An end `r` after `n` responses and those of `rs` that are consumed up to the count `m`: bytes and a last response, which
is the hard error that a SERIAL result reports (R220, R221). -/
def EndsWithin (n : Nat) (rs : List Response) (r : Result) (m : Nat) : Prop :=
  ∃ (bs : List Byte) (last : Response) (rest : List Response), rs = byteResponses bs ++ last :: rest ∧
    m = n + bs.length + 1 ∧ ∀ e, r = .serial e → last = .err e

/-- An end by a hard error behind bytes. -/
theorem endsWithin_of_err (n : Nat) (bs : List Byte) (e : SerialErr) (rest : List Response) :
    EndsWithin n (byteResponses bs ++ .err e :: rest) (.serial e) (n + bs.length + 1) :=
  ⟨bs, .err e, rest, rfl, rfl, fun _ h => by cases h; rfl⟩

/-- An end other than SERIAL with the second of two bytes. -/
theorem endsWithin_of_pair (n : Nat) (bs : List Byte) (rest : List Response) (r : Result) (hlen : bs.length = 2)
    (hserial : ∀ e, r ≠ .serial e) : EndsWithin n (byteResponses bs ++ rest) r (n + 2) := by
  obtain ⟨hi, lo, rfl⟩ := List.length_eq_two.1 hlen
  exact ⟨[hi], .byte lo, rest, rfl, rfl, fun e h => absurd h (hserial e)⟩

/-- An end behind bytes that were read before. -/
theorem EndsWithin.behind_bytes {n m : Nat} {bs : List Byte} {rs : List Response} {r : Result}
    (h : EndsWithin (n + bs.length) rs r m) : EndsWithin n (byteResponses bs ++ rs) r m := by
  obtain ⟨more, last, rest, rfl, rfl, hserial⟩ := h
  exact ⟨bs ++ more, last, rest, by simp [byteResponses_append], by simp; omega, hserial⟩

/-- A scan that fails has read bytes up to the hard error. -/
theorem scanFrom_failed (matched : Bool) (n m : Nat) (rs : List Response) (e : SerialErr)
    (h : scanFrom matched n rs = .failed e m) : EndsWithin n rs (.serial e) m := by
  induction rs generalizing matched n with
  | nil => cases h
  | cons r rs ih =>
    cases r with
    | err e' => cases h; exact endsWithin_of_err n [] e rs
    | byte b =>
      unfold scanFrom at h
      split at h
      · cases h
      · exact (ih _ _ h).behind_bytes (bs := [b])

/-- A phase that fails has read bytes up to the hard error. -/
theorem takeBytes_failed (k n m : Nat) (rs : List Response) (e : SerialErr) (h : takeBytes k n rs = .failed e m) :
    EndsWithin n rs (.serial e) m := by
  induction k generalizing n rs with
  | zero => cases h
  | succ k ih =>
    cases rs with
    | nil => cases h
    | cons r rs =>
      cases r with
      | err e' => cases h; exact endsWithin_of_err n [] e rs
      | byte b =>
        unfold takeBytes at h
        split at h
        · cases h
        · next htail => cases h; exact (ih _ _ htail).behind_bytes (bs := [b])
        · cases h

/-- A phase ends within its own bytes or behind them. -/
theorem takeBytes_andThen_ends (k n m : Nat) (rs : List Response) (next : List Byte → Nat → Option (Result × Nat))
    (r : Result) (hnext : ∀ (bs : List Byte) (rest : List Response), bs.length = k →
      rs.drop n = byteResponses bs ++ rest → next bs (n + k) = some (r, m) → EndsWithin n (byteResponses bs ++ rest) r m)
    (h : (takeBytes k n (rs.drop n)).andThen next = some (r, m)) : EndsWithin n (rs.drop n) r m := by
  rcases Reading.andThen_eq_some _ _ _ _ h with ⟨e, hread, rfl⟩ | ⟨bs, n', hread, hend⟩
  · exact takeBytes_failed _ _ _ _ _ hread
  · obtain ⟨hlen, rfl, rest, hrest⟩ := takeBytes_done _ _ _ _ _ hread
    rw [hrest]
    exact hnext bs rest hlen hrest hend

theorem trailerPhase_ends (p : List Byte) (n m : Nat) (rs : List Response) (r : Result)
    (h : trailerPhase p n rs = some (r, m)) : EndsWithin n (rs.drop n) r m := by
  rw [trailerPhase_eq] at h
  refine takeBytes_andThen_ends 2 n m rs _ r (fun t rest hlen _ hend => ?_) h
  unfold trailerResult at hend
  split at hend <;> cases hend <;> exact endsWithin_of_pair n t rest _ hlen nofun

theorem payloadPhase_ends (n m : Nat) (rs : List Response) (r : Result) (h : payloadPhase n rs = some (r, m)) :
    EndsWithin n (rs.drop n) r m := by
  rw [payloadPhase_eq] at h
  refine takeBytes_andThen_ends 26 n m rs _ r (fun p rest hlen hrest hend => ?_) h
  have htrailer := trailerPhase_ends p _ m rs r hend
  rw [← hlen, drop_byteResponses _ _ _ _ hrest] at htrailer
  exact htrailer.behind_bytes

theorem lengthPhase_ends (n m : Nat) (rs : List Response) (r : Result) (h : lengthPhase n rs = some (r, m)) :
    EndsWithin n (rs.drop n) r m := by
  rw [lengthPhase_eq] at h
  refine takeBytes_andThen_ends 2 n m rs _ r (fun len rest hlen hrest hend => ?_) h
  unfold lengthResult at hend
  split at hend
  · have hpayload := payloadPhase_ends _ m rs r hend
    rw [← hlen, drop_byteResponses _ _ _ _ hrest] at hpayload
    exact hpayload.behind_bytes
  · cases hend
    exact endsWithin_of_pair n len rest _ hlen nofun

/-- A transaction consumes bytes and a last response, a hard error when it ends SERIAL (R220, R221). -/
theorem transaction_ends (rs : List Response) (r : Result) (m : Nat) (h : transaction rs = some (r, m)) :
    EndsWithin 0 rs r m := by
  rw [transaction_eq] at h
  rcases Reading.andThen_eq_some _ _ _ _ h with ⟨e, hread, rfl⟩ | ⟨_, j, hread, hend⟩
  · exact scanFrom_failed _ _ _ _ _ hread
  · obtain ⟨bs, -, rest, hrs, hj, -⟩ := scanFrom_done _ _ _ _ hread
    have hlength := lengthPhase_ends j m rs r hend
    rw [hj, drop_byteResponses rs rest 0 bs hrs] at hlength
    exact hrs ▸ hlength.behind_bytes

/-! ## The count of an INVALID_LENGTH -/

/-- The payload and the trailer report no length. -/
theorem payloadPhase_ne_invalidLength (n m : Nat) (rs : List Response) (v : Half) :
    payloadPhase n rs ≠ some (.invalidLength v, m) := by
  intro h
  rw [payloadPhase_eq] at h
  obtain ⟨e, -, hr⟩ | ⟨p, n', -, hend⟩ := Reading.andThen_eq_some _ _ _ _ h
  · cases hr
  rw [trailerPhase_eq] at hend
  obtain ⟨e, -, hr⟩ | ⟨t, n'', -, hresult⟩ := Reading.andThen_eq_some _ _ _ _ hend
  · cases hr
  unfold trailerResult at hresult
  split at hresult <;> cases hresult

/-- A bad length ends the transaction 2 responses after the lock (R141, R221). -/
theorem transaction_invalidLength_consumes (rs : List Response) (v : Half) (m : Nat)
    (h : transaction rs = some (.invalidLength v, m)) : ∃ j, scanFrom false 0 rs = .done () j ∧ m = j + 2 := by
  rw [transaction_eq] at h
  obtain ⟨e, -, hr⟩ | ⟨_, j, hscan, hlength⟩ := Reading.andThen_eq_some _ _ _ _ h
  · cases hr
  refine ⟨j, hscan, ?_⟩
  rw [lengthPhase_eq] at hlength
  obtain ⟨e, -, hr⟩ | ⟨len, n', hread, hend⟩ := Reading.andThen_eq_some _ _ _ _ hlength
  · cases hr
  obtain ⟨-, hn, -⟩ := takeBytes_done _ _ _ _ _ hread
  unfold lengthResult at hend
  split at hend
  · exact absurd hend (payloadPhase_ne_invalidLength _ _ _ _)
  · cases hend
    exact hn

/-- Settles O46: `transaction_ends` bounds the count and finds the hard error, `transaction_append` is the rest of the
stream, and the counts after the lock are those of the phases; a good frame is one behind no noise. -/
theorem transactionsConsumeExactlyWhatTheyRead : Obligations.TransactionsConsumeExactlyWhatTheyRead := by
  refine ⟨fun rs more r n h => ?_, fun p rest hp => ?_⟩
  · obtain ⟨bs, last, rest, hrs, hn, hserial⟩ := transaction_ends rs r n h
    have hframe (hs : ∀ e, r ≠ .serial e) (hl : ∀ v, r ≠ .invalidLength v) :
        ∃ j, 2 ≤ j ∧ scanFrom false 0 rs = .done () j ∧ n = j + 30 := by
      obtain ⟨noise, hscan, hcount⟩ := transaction_consumes rs r n h hs hl
      exact ⟨noise + 2, by omega, hscan, hcount⟩
    refine ⟨by simp [hrs, hn, byteResponses], transaction_append rs more r n h, ?_⟩
    cases r with
    | ok f => exact hframe nofun nofun
    | invalidData c v => exact hframe nofun nofun
    | invalidLength v =>
      obtain ⟨j, hscan, hcount⟩ := transaction_invalidLength_consumes rs v n h
      obtain ⟨noise, hj⟩ := scanFrom_reads_markers rs j hscan
      exact ⟨j, by omega, hscan, hcount⟩
    | serial e => exact ⟨bs, rest, hserial e rfl ▸ hrs, by omega⟩
  · exact (transaction_of_noise_and_frame_iff [] p rest hp).2 ⟨rfl, rfl⟩

end Sys2Proof.Machine
end

section
/-! START clears what a transaction could remember (R100, R223). -/

namespace Sys2Proof.Machine

/-- The START edge of an idle core clears the registers behind the move of the environment (R100). -/
theorem step_of_start (s : State) (hst : s.idle) (hrst : s.hostPins.rst = false) (hstart : s.hostPins.start = true) :
    step s = .next s.passEdge.startTransaction := by
  rw [step_of_idle s hst hrst, hstart]
  rfl

/-- A started core is its environment (R100). -/
theorem State.startTransaction_congr (s t : State) (hhost : s.host = t.host) (hsource : s.source = t.source)
    (hhostFree : s.hostFree = t.hostFree) (hsourceFree : s.sourceFree = t.sourceFree) :
    s.startTransaction = t.startTransaction := by
  simp [State.startTransaction, *]

theorem State.startTransaction_dropHost (s : State) : s.dropHost.startTransaction = s.startTransaction.dropHost := by
  unfold State.dropHost
  rw [s.startTransaction_host]
  cases s.host <;> rfl

theorem State.startTransaction_dropSource (s : State) :
    s.dropSource.startTransaction = s.startTransaction.dropSource := by
  unfold State.dropSource
  rw [s.startTransaction_source]
  cases s.source <;> rfl

/-- Behind a START edge of an idle core the source has moved on when it presented nothing (R34, R104). -/
theorem State.startTransaction_passEdge (s : State) (hst : s.idle) : s.passEdge.startTransaction =
    if s.sourcePins.inValid then s.startTransaction.dropHost else s.startTransaction.dropHost.dropSource := by
  have hpasses : s.slotPasses = !s.sourcePins.inValid := by simp [State.slotPasses, s.accepts_of_idle hst]
  rw [State.passEdge, hpasses]
  cases s.sourcePins.inValid <;> simp [State.startTransaction_dropHost, State.startTransaction_dropSource]

/-- Settles O42: after START both cores are the same environment with cleared registers, and a run is a function of its
state. -/
theorem nothingIsRememberedAcrossTransactions : Obligations.NothingIsRememberedAcrossTransactions := by
  intro s t n hs ht hhost hsource hhostFree hsourceFree hrst hstart
  have hhostPins : t.hostPins = s.hostPins := by simp [State.hostPins, hhost, hhostFree]
  have hsourcePins : t.sourcePins = s.sourcePins := by simp [State.sourcePins, hsource, hsourceFree]
  have hsame : t.passEdge.startTransaction = s.passEdge.startTransaction := by
    rw [s.startTransaction_passEdge hs, t.startTransaction_passEdge ht, hsourcePins,
      s.startTransaction_congr t hhost hsource hhostFree hsourceFree]
  have hsstep := step_of_start s hs hrst hstart
  have htstep := step_of_start t ht (hhostPins ▸ hrst) (hhostPins ▸ hstart)
  rw [hsame] at htstep
  exact ⟨hsstep.trans htstep.symm, (run_succ n s _ hsstep).trans (run_succ n t _ htstep).symm⟩

end Sys2Proof.Machine
end

section
/-! One edge against the transaction function (R220): what the function gives from a busy state on does not change at an
edge. -/

namespace Sys2Proof.Machine

/-! ## The buffer as the bytes of a payload -/

/-- The first `n` bytes of the buffer. -/
def Memory.bytes (buf : Memory) (n : Nat) : List Byte := (List.range n).map buf.readByte

/-- A byte stored behind the first `n` is the next one. -/
theorem Memory.bytes_writeByte (buf : Memory) (h : buf.wf) (n : Nat) (b : Byte) :
    (buf.writeByte n b).bytes (n + 1) = buf.bytes n ++ [b] := by
  have hbelow : (buf.writeByte n b).bytes n = buf.bytes n := by
    refine List.map_congr_left fun i hi => ?_
    rw [buf.readByte_writeByte h, if_neg (List.mem_range.1 hi).ne]
  rw [← hbelow]
  simp [Memory.bytes, List.range_succ, buf.readByte_writeByte h]

/-- The sum of the frame is the checksum of the buffer (R180). -/
theorem frameSum_bytes (buf : Memory) : frameSum (buf.bytes 26) = buf.checksum 26 := by
  simp only [frameSum, Memory.bytes, List.map_map]
  rfl

/-- The value of two bytes as a 16-bit register holds it (R71). -/
theorem ofNat_pairValue (hi lo : Byte) : BitVec.ofNat 16 (pairValue [hi, lo]) = pair hi lo := by
  rw [pairValue, ← pair_toNat, BitVec.ofNat_toNat, BitVec.setWidth_eq]

/-- The extractor reads the fields of the payload (R200, R203). -/
theorem parsePayload_bytes (buf : Memory) : parsePayload (buf.bytes 26) = parse buf := by
  have hbyte (i : Nat) (hi : i < 26) : (buf.bytes 26).getD i 0 = buf.readByte i := by simp [Memory.bytes, hi]
  have hfield (k : Nat) (hk : k < 12) : payloadField (buf.bytes 26) k = buf.field k := by
    rw [payloadField, hbyte _ (by omega), hbyte _ (by omega)]
    exact ofNat_pairValue _ _
  simp [parsePayload, parse, hfield]

/-- The high byte that a half register has taken. -/
theorem hiByte_setHi (v : Half) (b : Byte) : hiByte (setHi v b) = b := by
  rw [setHi, pair_eq_append, hiByte_append]

/-! ## Readings response by response -/

/-- What follows the next response. -/
theorem drop_succ_of_cons (rs rest : List Response) (n : Nat) (x : Response) (h : rs.drop n = x :: rest) :
    rs.drop (n + 1) = rest := by
  rw [← List.tail_drop, h, List.tail_cons]

/-- A phase that meets a byte goes on behind it. -/
theorem takeBytes_andThen_byte (k n : Nat) (rs rest : List Response) (b : Byte)
    (next : List Byte → Nat → Option (Result × Nat)) (h : rs.drop n = .byte b :: rest) :
    (takeBytes (k + 1) n (rs.drop n)).andThen next =
      (takeBytes k (n + 1) (rs.drop (n + 1))).andThen fun bs => next (b :: bs) := by
  rw [drop_succ_of_cons rs rest n _ h, h, takeBytes]
  cases takeBytes k (n + 1) rest <;> rfl

/-! ## What the transaction function gives from a busy state on -/

/-- What is left of the transaction function on the responses `rs` for a core that has read `n` of them: the phase of its
state, with the bytes of the phase that its registers hold. -/
def State.remaining (s : State) (rs : List Response) (n : Nat) : Option (Result × Nat) :=
  if s.st = St.sync then (scanFrom (s.m == 1) n (rs.drop n)).andThen fun _ j => lengthPhase j rs
  else if s.st = St.len then
    if s.idx = 0 then lengthPhase n rs
    else (takeBytes 1 n (rs.drop n)).andThen fun l => lengthResult rs (hiByte s.len :: l)
  else if s.st = St.pay then
    (takeBytes (26 - s.idx.toNat) n (rs.drop n)).andThen fun p j => trailerPhase (s.buf.bytes s.idx.toNat ++ p) j rs
  else if s.idx = 0 then trailerPhase (s.buf.bytes 26) n rs
  else (takeBytes 1 n (rs.drop n)).andThen fun t => trailerResult (s.buf.bytes 26) (hiByte s.trl :: t)

section
variable (s : State) (rs : List Response) (n : Nat)

theorem State.remaining_sync (hst : s.st = St.sync) :
    s.remaining rs n = (scanFrom (s.m == 1) n (rs.drop n)).andThen fun _ j => lengthPhase j rs := if_pos hst

theorem State.remaining_lenHi (hst : s.st = St.len) (hidx : s.idx = 0) : s.remaining rs n = lengthPhase n rs := by
  simp [State.remaining, hst, hidx]

theorem State.remaining_lenLo (hst : s.st = St.len) (hidx : s.idx = 1) : s.remaining rs n =
    (takeBytes 1 n (rs.drop n)).andThen fun l => lengthResult rs (hiByte s.len :: l) := by
  simp [State.remaining, hst, hidx]

theorem State.remaining_pay (hst : s.st = St.pay) : s.remaining rs n =
    (takeBytes (26 - s.idx.toNat) n (rs.drop n)).andThen
      fun p j => trailerPhase (s.buf.bytes s.idx.toNat ++ p) j rs := by
  simp [State.remaining, hst]

theorem State.remaining_chkHi (hst : s.st = St.chk) (hidx : s.idx = 0) :
    s.remaining rs n = trailerPhase (s.buf.bytes 26) n rs := by
  simp [State.remaining, hst, hidx]

theorem State.remaining_chkLo (hst : s.st = St.chk) (hidx : s.idx = 1) : s.remaining rs n =
    (takeBytes 1 n (rs.drop n)).andThen fun t => trailerResult (s.buf.bytes 26) (hiByte s.trl :: t) := by
  simp [State.remaining, hst, hidx]

/-- The move of the environment leaves the phase as it is. -/
theorem State.remaining_passEdge : s.passEdge.remaining rs n = s.remaining rs n := by
  simp [State.remaining]

/-- A reading core waits for a response: the phase is not over (R141, R161, R184). -/
theorem State.remaining_reads (hread : s.reading) :
    (∃ matched next, s.remaining rs n = (scanFrom matched n (rs.drop n)).andThen next) ∨
    ∃ k next, s.remaining rs n = (takeBytes (k + 1) n (rs.drop n)).andThen next := by
  obtain ⟨hbusy, hreach⟩ := hread
  rcases s.busy_iff.1 hbusy with hst | hst | hst | hst
  · exact .inl ⟨_, _, s.remaining_sync rs n hst⟩
  · rcases index_of_reachable _ _ hreach (.inl hst) with hidx | hidx
    · exact .inr ⟨1, _, (s.remaining_lenHi rs n hst hidx).trans (lengthPhase_eq n rs)⟩
    · exact .inr ⟨0, _, s.remaining_lenLo rs n hst hidx⟩
  · have hidx : 26 - s.idx.toNat = 25 - s.idx.toNat + 1 := by
      have hle : ¬ 26 ≤ s.idx.toNat := fun hge => by simp [(unreachable_iff _ _).2 (.inr (.inr ⟨hst, hge⟩))] at hreach
      omega
    exact .inr ⟨25 - s.idx.toNat, _, hidx ▸ s.remaining_pay rs n hst⟩
  · rcases index_of_reachable _ _ hreach (.inr hst) with hidx | hidx
    · exact .inr ⟨1, _, (s.remaining_chkHi rs n hst hidx).trans (trailerPhase_eq _ n rs)⟩
    · exact .inr ⟨0, _, s.remaining_chkLo rs n hst hidx⟩

/-- Without a further response a transaction that is not over does not end (R222). -/
theorem State.remaining_of_no_response (hread : s.reading) (h : rs.drop n = []) : s.remaining rs n = none := by
  rcases s.remaining_reads rs n hread with ⟨matched, next, hphase⟩ | ⟨k, next, hphase⟩ <;> rw [hphase, h] <;> rfl

/-- A hard error ends the transaction in every phase (R220, R300). -/
theorem State.remaining_of_err (hread : s.reading) (e : SerialErr) (rest : List Response)
    (h : rs.drop n = .err e :: rest) : s.remaining rs n = some (.serial e, n + 1) := by
  rcases s.remaining_reads rs n hread with ⟨matched, next, hphase⟩ | ⟨k, next, hphase⟩ <;> rw [hphase, h] <;> rfl

end

/-! ## The results at the ends -/

theorem State.result_of_ok (s : State) : (s.endTransaction .ok).result = some (.ok (parse s.buf)) := rfl

theorem State.result_of_invalidLength (s : State) :
    (s.endTransaction .invalidLength).result = some (.invalidLength s.len) := rfl

theorem State.result_of_invalidData (s : State) :
    (s.endTransaction .invalidData).result = some (.invalidData s.acc s.trl) := rfl

theorem State.result_of_serial (s : State) (e : SerialErr) : (s.raiseSerial e).result = some (.serial e) := rfl

/-! ## An accepted response -/

/-- The response `x` leads from `s` to `t` as the transaction function says: it goes on from `t`, or its result is the one
that `t` shows. -/
inductive State.Advances (s : State) (x : Response) (t : State) : Prop
  | goesOn (hbusy : t.busy = true)
      (h : ∀ rs n rest, rs.drop n = x :: rest → s.remaining rs n = t.remaining rs (n + 1))
  | ends (r : Result) (hidle : t.idle) (hresult : t.result = some r)
      (h : ∀ rs n rest, rs.drop n = x :: rest → s.remaining rs n = some (r, n + 1))

/-- A byte of SYNC that does not lock moves the match position on as the scan says (R120 to R122, R125). -/
theorem State.advances_of_scan (s t : State) (b : Byte) (hs : s.st = St.sync) (ht : t.st = St.sync)
    (hlock : (s.m == 1 && b == Config.marker1) = false)
    (hmatch : (!(s.m == 1) && b == Config.marker0) = (t.m == 1)) : s.Advances (.byte b) t := by
  refine .goesOn (t.busy_iff.2 (.inl ht)) fun rs n rest h => ?_
  rw [s.remaining_sync rs n hs, t.remaining_sync rs (n + 1) ht, drop_succ_of_cons rs rest n _ h, h, scanFrom, hlock,
    hmatch]
  rfl

/-- The high length byte is the first of the two that the length is read from (R140). -/
theorem State.advances_of_lenHi (s t : State) (b : Byte) (hs : s.st = St.len) (hidx : s.idx = 0) (ht : t.st = St.len)
    (htidx : t.idx = 1) (hlen : hiByte t.len = b) : s.Advances (.byte b) t := by
  refine .goesOn (t.busy_iff.2 (.inr (.inl ht))) fun rs n rest h => ?_
  rw [s.remaining_lenHi rs n hs hidx, lengthPhase_eq, takeBytes_andThen_byte 1 n rs rest b _ h,
    t.remaining_lenLo rs _ ht htidx, hlen]

/-- The low length byte decides by the value of the two (R141). -/
theorem State.remaining_of_lenLo_byte (s : State) (rs rest : List Response) (n : Nat) (b : Byte) (hs : s.st = St.len)
    (hidx : s.idx = 1) (h : rs.drop n = .byte b :: rest) :
    s.remaining rs n = lengthResult rs [hiByte s.len, b] (n + 1) := by
  rw [s.remaining_lenLo rs n hs hidx, takeBytes_andThen_byte 0 n rs rest b _ h]
  rfl

/-- A length of 28 leads to the payload (R141). -/
theorem State.advances_of_lenLo (s t : State) (b : Byte) (hs : s.st = St.len) (hidx : s.idx = 1)
    (hlen : setLo s.len b = 28) (ht : t.st = St.pay) (htidx : t.idx = 0) : s.Advances (.byte b) t := by
  refine .goesOn (t.busy_iff.2 (.inr (.inr (.inl ht)))) fun rs n rest h => ?_
  have hvalue : pairValue [hiByte s.len, b] = 28 := (setLo_eq_expected_iff s.len b).1 hlen
  rw [s.remaining_of_lenLo_byte rs rest n b hs hidx h, lengthResult, if_pos hvalue, payloadPhase_eq,
    t.remaining_pay rs _ ht, htidx]
  rfl

/-- Another length is the result (R141). -/
theorem State.advances_of_bad_length (s t : State) (b : Byte) (hs : s.st = St.len) (hidx : s.idx = 1)
    (hlen : setLo s.len b ≠ 28) (ht : t.idle) (hresult : t.result = some (.invalidLength (setLo s.len b))) :
    s.Advances (.byte b) t := by
  refine .ends _ ht hresult fun rs n rest h => ?_
  have hvalue : pairValue [hiByte s.len, b] ≠ 28 := mt (setLo_eq_expected_iff s.len b).2 hlen
  rw [s.remaining_of_lenLo_byte rs rest n b hs hidx h, lengthResult, if_neg hvalue, ofNat_pairValue]
  rfl

/-- A payload byte that is not the last is stored behind those that the buffer holds (R160). -/
theorem State.advances_of_payByte (s t : State) (b : Byte) (hs : s.st = St.pay) (hidx : s.idx.toNat ≤ 24)
    (hbuf : s.buf.wf) (ht : t.st = St.pay) (htidx : t.idx = s.idx + 1) (htbuf : t.buf = s.buf.writeByte s.idx.toNat b) :
    s.Advances (.byte b) t := by
  refine .goesOn (t.busy_iff.2 (.inr (.inr (.inl ht)))) fun rs n rest h => ?_
  have hnext : t.idx.toNat = s.idx.toNat + 1 := by rw [htidx]; bv_omega
  have hleft : 26 - s.idx.toNat = 26 - t.idx.toNat + 1 := by omega
  rw [s.remaining_pay rs n hs, hleft, takeBytes_andThen_byte _ n rs rest b _ h, t.remaining_pay rs _ ht, htbuf, hnext,
    s.buf.bytes_writeByte hbuf]
  simp only [List.append_assoc, List.singleton_append]

/-- The last payload byte completes the 26 (R161). -/
theorem State.advances_of_payLast (s t : State) (b : Byte) (hs : s.st = St.pay) (hidx : s.idx = 25) (hbuf : s.buf.wf)
    (ht : t.st = St.chk) (htidx : t.idx = 0) (htbuf : t.buf = s.buf.writeByte 25 b) : s.Advances (.byte b) t := by
  refine .goesOn (t.busy_iff.2 (.inr (.inr (.inr ht)))) fun rs n rest h => ?_
  rw [s.remaining_pay rs n hs, hidx, t.remaining_chkHi rs _ ht htidx, htbuf, s.buf.bytes_writeByte hbuf]
  exact takeBytes_andThen_byte 0 n rs rest b _ h

/-- The high trailer byte is the first of the two that the trailer is read from (R183). -/
theorem State.advances_of_chkHi (s t : State) (b : Byte) (hs : s.st = St.chk) (hidx : s.idx = 0) (ht : t.st = St.chk)
    (htidx : t.idx = 1) (htbuf : t.buf = s.buf) (htrl : hiByte t.trl = b) : s.Advances (.byte b) t := by
  refine .goesOn (t.busy_iff.2 (.inr (.inr (.inr ht)))) fun rs n rest h => ?_
  rw [s.remaining_chkHi rs n hs hidx, trailerPhase_eq, takeBytes_andThen_byte 1 n rs rest b _ h,
    t.remaining_chkLo rs _ ht htidx, htbuf, htrl]

/-- The low trailer byte decides by the values of the trailer and the accumulator (R184). -/
theorem State.remaining_of_chkLo_byte (s : State) (rs rest : List Response) (n : Nat) (b : Byte) (hs : s.st = St.chk)
    (hidx : s.idx = 1) (hacc : s.acc.toNat = s.buf.checksum 26) (h : rs.drop n = .byte b :: rest) :
    s.remaining rs n = if setLo s.trl b = s.acc then some (.ok (parse s.buf), n + 1)
      else some (.invalidData s.acc (setLo s.trl b), n + 1) := by
  have hsum : frameSum (s.buf.bytes 26) = s.acc.toNat := (frameSum_bytes s.buf).trans hacc.symm
  have hvalue : pairValue [hiByte s.trl, b] = s.acc.toNat ↔ setLo s.trl b = s.acc := (setLo_eq_iff s.trl s.acc b).symm
  rw [s.remaining_chkLo rs n hs hidx, takeBytes_andThen_byte 0 n rs rest b _ h]
  show trailerResult (s.buf.bytes 26) [hiByte s.trl, b] (n + 1) = _
  simp only [trailerResult, hsum, hvalue, ofNat_pairValue, parsePayload_bytes, BitVec.ofNat_toNat, BitVec.setWidth_eq]
  rfl

/-- The response that an edge accepts as a byte (R31, R32). -/
theorem State.Reads.response {s : State} {c : BitVec 3} {b : Byte} (h : s.Reads c b) :
    slotResponse s.sourcePins = some (.byte b) := by
  simp [slotResponse, (s.pins_of_accepts h.accepts).2, h.noError, h.data]

/-- An edge of a busy core without a reset is a wait, or it accepts a response and advances as the transaction function
says (R102, R220). -/
theorem State.Edge.waits_or_advances {s t : State} (h : s.Edge t) (hs : s.Inv) (hwork : s.Work) (hbusy : s.busy = true)
    (hrst : s.hostPins.rst = false) :
    (s.sourcePins.inValid = false ∧ t = s.passEdge) ∨
      ∃ x, slotResponse s.sourcePins = some x ∧ s.Advances x t := by
  have hbuf : s.buf.wf := hs.buffer_canonical
  have hst {c b} (h : s.Reads c b) : s.passEdge.st = c := s.passEdge_st.trans h.code
  cases h with
  | reset h => simp [hrst] at h
  | illegal _ hu => simp [hs.reachable] at hu
  | idleStart _ hidle => simp [s.busy_of_idle hidle] at hbusy
  | idleHold _ hidle => simp [s.busy_of_idle hidle] at hbusy
  | busyWait _ _ hvalid => exact .inl ⟨hvalid, rfl⟩
  | busySerr hacc hread herr =>
    refine .inr ⟨.err s.sourcePins.inErr, by simp [slotResponse, (s.pins_of_accepts hacc).2, herr], ?_⟩
    exact .ends _ rfl (State.result_of_serial _ _) fun rs n rest h => s.remaining_of_err rs n hread _ rest h
  | syncHit0 h hm => exact .inr ⟨_, h.response, s.advances_of_scan _ _ h.code (hst h) (by simp) (by simp [hm])⟩
  | syncMiss0 h hm hb =>
    exact .inr ⟨_, h.response, s.advances_of_scan _ _ h.code (hst h) (by simp [hm]) (by simpa using fun _ => hb)⟩
  | syncMiss1 h hm hb =>
    exact .inr ⟨_, h.response, s.advances_of_scan _ _ h.code (hst h) (by simpa using fun _ => hb) (by simp [hm])⟩
  | syncHit1 h hm =>
    refine .inr ⟨_, h.response, .goesOn rfl fun rs n rest hdrop => ?_⟩
    rw [s.remaining_sync rs n h.code, hm, hdrop, State.remaining_lenHi _ _ _ rfl rfl]
    rfl
  | lenHi h hidx => exact .inr ⟨_, h.response, s.advances_of_lenHi _ _ h.code hidx (hst h) rfl (hiByte_setHi _ _)⟩
  | lenLoOk h hidx hlen => exact .inr ⟨_, h.response, s.advances_of_lenLo _ _ h.code hidx hlen rfl rfl⟩
  | lenLoBad h hidx hlen =>
    refine .inr ⟨_, h.response, s.advances_of_bad_length _ _ h.code hidx hlen rfl ?_⟩
    rw [State.result_of_invalidLength, s.passEdge_len]
  | payByte h hle =>
    exact .inr ⟨_, h.response, s.advances_of_payByte _ _ h.code hle hbuf (hst h) rfl (by rw [s.passEdge_buf])⟩
  | payLast h hidx =>
    exact .inr ⟨_, h.response, s.advances_of_payLast _ _ h.code hidx hbuf rfl rfl (by rw [s.passEdge_buf])⟩
  | chkHi h hidx =>
    exact .inr ⟨_, h.response, s.advances_of_chkHi _ _ h.code hidx (hst h) rfl s.passEdge_buf (hiByte_setHi _ _)⟩
  | chkLoOk h hidx hsum =>
    obtain ⟨-, hacc⟩ := hwork.in_chk h.code
    refine .inr ⟨_, h.response, .ends _ rfl (State.result_of_ok _) fun rs n rest hdrop => ?_⟩
    rw [s.remaining_of_chkLo_byte rs rest n _ h.code hidx hacc hdrop, if_pos hsum, s.passEdge_buf]
  | chkLoBad h hidx hsum =>
    obtain ⟨-, hacc⟩ := hwork.in_chk h.code
    refine .inr ⟨_, h.response, .ends _ rfl (State.result_of_invalidData _) fun rs n rest hdrop => ?_⟩
    rw [s.remaining_of_chkLo_byte rs rest n _ h.code hidx hacc hdrop, if_neg hsum, s.passEdge_acc, s.passEdge_trl]

end Sys2Proof.Machine
end

section
/-! Runs against the transaction function (R220, R222, R224). -/

namespace Sys2Proof.Machine

/-! ## A core in a transaction -/

/-- The core has read `n` of the responses `rs`, its source holds the others, and what is left of the transaction function
is the function's value. -/
structure State.Follows (s : State) (rs : List Response) (n : Nat) : Prop where
  inv    : s.Inv
  work   : s.Work
  busy   : s.busy = true
  stream : responses s.source = rs.drop n
  agrees : s.remaining rs n = transaction rs

/-- The core is idle and shows the result of the transaction function, whose count of responses its source has lost. -/
structure State.Finished (s : State) (rs : List Response) (r : Result) (n : Nat) : Prop where
  idle   : s.idle
  result : s.result = some r
  stream : responses s.source = rs.drop n
  agrees : transaction rs = some (r, n)

/-- The core is busy and shows no result. -/
abbrev State.pending (s : State) : Prop := s.outputs.busy = true ∧ s.outputs.resValid = false

/-- At each of the `k` edges of a run the core is busy without a result. -/
def State.PendingFor (s : State) (k : Nat) : Prop := ∀ j < k, ∃ u, Host.Core.run core j s = .next u ∧ u.pending

theorem State.PendingFor.zero (s : State) : s.PendingFor 0 := nofun

theorem State.PendingFor.succ {s t : State} {k : Nat} (hs : s.pending) (hstep : step s = .next t) (ht : t.PendingFor k) :
    s.PendingFor (k + 1)
  | 0, _ => ⟨s, rfl, hs⟩
  | j + 1, hj => by
    obtain ⟨u, hrun, hu⟩ := ht j (Nat.lt_of_succ_lt_succ hj)
    exact ⟨u, (run_succ j s t hstep).trans hrun, hu⟩

theorem State.Follows.pending {s : State} {rs : List Response} {n : Nat} (h : s.Follows rs n) : s.pending :=
  ⟨h.busy, (h.inv.no_result h.busy).1⟩

/-- A core that has read all responses is in a transaction without an end (R222). -/
theorem State.Follows.no_end {s : State} {rs : List Response} {n : Nat} (h : s.Follows rs n) (hsource : s.source = []) :
    transaction rs = none := by
  have hdrop : rs.drop n = [] := by rw [← h.stream, hsource]; rfl
  rw [← h.agrees]
  exact s.remaining_of_no_response rs n ⟨h.busy, h.inv.reachable⟩ hdrop

/-! ## Edges and runs -/

/-- The responses of a list of slots, slot by slot. -/
theorem responses_cons (p : SourcePins) (rest : List SourcePins) (x : Response) (h : slotResponse p = some x) :
    responses (p :: rest) = x :: responses rest := by
  simp [responses, h]

/-- An edge on a listed slot uses up its pins; the core stays in its transaction or has finished it. -/
theorem State.Follows.edge {s : State} {rs : List Response} {n : Nat} (h : s.Follows rs n) (p : SourcePins)
    (rest : List SourcePins) (hsource : s.source = p :: rest) (hrst : s.hostPins.rst = false) :
    ∃ t, step s = .next t ∧ t.host = s.host.tail ∧ t.source = rest ∧
      ((∃ n', t.Follows rs n') ∨ ∃ r n', t.Finished rs r n') := by
  obtain ⟨t, hstep⟩ := everyEdgeLeadsToANextState s
  have hedge := edge_of_step s t hstep
  have hinv : t.Inv := hedge.keeps_inv h.inv
  have hwork : t.Work := hedge.keeps_work h.inv h.work
  have hpins : s.sourcePins = p := by rw [State.sourcePins, hsource]
  obtain ⟨hhost, htsource⟩ := step_environment s t hstep
  rw [if_pos (s.slotPasses_of_busy hrst h.busy), hsource, List.tail_cons] at htsource
  refine ⟨t, hstep, hhost, htsource, ?_⟩
  have hstream := h.stream
  rw [hsource] at hstream
  rcases hedge.waits_or_advances h.inv h.work h.busy hrst with ⟨hvalid, rfl⟩ | ⟨x, hx, hadvances⟩
  · rw [responses_absent p rest (hpins ▸ hvalid)] at hstream
    exact .inl ⟨n, hinv, hwork, (State.busy_congr _ _ s.passEdge_st).trans h.busy, by rw [htsource, hstream],
      (s.remaining_passEdge rs n).trans h.agrees⟩
  · rw [responses_cons p rest x (hpins ▸ hx)] at hstream
    have hrest : responses t.source = rs.drop (n + 1) := by
      rw [htsource, drop_succ_of_cons rs _ n x hstream.symm]
    cases hadvances with
    | goesOn hbusy hgo => exact .inl ⟨n + 1, hinv, hwork, hbusy, hrest, (hgo rs n _ hstream.symm).symm.trans h.agrees⟩
    | ends r hidle hresult hend =>
      exact .inr ⟨r, n + 1, hidle, hresult, hrest, h.agrees.symm.trans (hend rs n _ hstream.symm)⟩

/-- Over its listed slots a core in a transaction finishes it as the transaction function says, or uses up the slots
while the function gives no result; until then it is busy without one. -/
theorem State.Follows.run {s : State} {rs : List Response} {n : Nat} (h : s.Follows rs n) (slots : List SourcePins)
    (hsource : s.source = slots) (hrst : noReset s.host) (hlen : slots.length ≤ s.host.length) :
    (∃ k t r m, k ≤ slots.length ∧ Host.Core.run core k s = .next t ∧ s.PendingFor k ∧ t.Finished rs r m) ∨
      (transaction rs = none ∧ s.PendingFor (slots.length + 1)) := by
  induction slots generalizing s n with
  | nil =>
    exact .inr ⟨h.no_end hsource, fun j hj => by
      obtain rfl : j = 0 := by simpa using hj
      exact ⟨s, rfl, h.pending⟩⟩
  | cons p rest ih =>
    obtain ⟨pins, hs, hhost⟩ := List.exists_cons_of_length_pos (Nat.lt_of_lt_of_le (Nat.succ_pos _) hlen)
    have hpins : s.hostPins = pins := by rw [State.hostPins, hhost]
    rw [hhost] at hrst hlen
    obtain ⟨hp, hrest⟩ := List.forall_mem_cons.1 hrst
    obtain ⟨t, hstep, hthost, htsource, ⟨n', ht⟩ | ⟨r, m, ht⟩⟩ := h.edge p rest hsource (hpins ▸ hp)
    · rw [hhost, List.tail_cons] at hthost
      rcases ih ht htsource (hthost ▸ hrest) (hthost ▸ Nat.le_of_succ_le_succ hlen) with
        ⟨k, u, r, m, hk, hrun, hpending, hu⟩ | ⟨hnone, hpending⟩
      · exact .inl ⟨k + 1, u, r, m, Nat.succ_le_succ hk, (run_succ k s t hstep).trans hrun,
          .succ h.pending hstep hpending, hu⟩
      · exact .inr ⟨hnone, .succ h.pending hstep hpending⟩
    · exact .inl ⟨1, t, r, m, by simp, run_succ 0 s t hstep, .succ h.pending hstep (.zero t), ht⟩

/-! ## Transactions from START -/

/-- After a START the core is in a transaction that has read nothing, whatever its registers held (R100). -/
theorem State.startTransaction_follows (s : State) (rs : List Response) (h : responses s.source = rs) :
    s.startTransaction.Follows rs 0 where
  inv := s.inv_startTransaction
  work := State.work_of_busy _ (.sync rfl ⟨rfl, rfl, rfl, rfl, rfl⟩) rfl
  busy := rfl
  stream := h
  agrees := (State.remaining_sync _ rs 0 rfl).trans (transaction_eq rs).symm

theorem State.length_sourceIfHeld_le (s : State) : s.sourceIfHeld.length ≤ s.source.length := by
  unfold State.sourceIfHeld
  split
  · exact Nat.le_refl _
  · simp

/-- A START and enough edges without a reset: the transaction finishes as the transaction function says, or the listed
slots are used up while the function gives no result; until then the core is busy without one. -/
theorem run_from_start (s : State) (hs : List HostPins) (hst : s.idle) (hrst : noReset hs)
    (hlen : s.source.length ≤ hs.length) :
    ∃ t, step { s with host := ⟨false, true⟩ :: hs } = .next t ∧
      ((∃ k u r m, k ≤ s.source.length ∧ Host.Core.run core k t = .next u ∧ t.PendingFor k ∧
          u.Finished (responses s.source) r m) ∨
        (transaction (responses s.source) = none ∧ t.PendingFor (s.sourceIfHeld.length + 1))) := by
  have hstep := step_of_start { s with host := ⟨false, true⟩ :: hs } hst rfl rfl
  have hsource := State.passEdge_source_of_idle { s with host := ⟨false, true⟩ :: hs } hst
  have hhost := State.passEdge_host { s with host := ⟨false, true⟩ :: hs }
  have hheld := s.length_sourceIfHeld_le
  refine ⟨_, hstep, ?_⟩
  have hfollows := State.startTransaction_follows _ (responses s.source)
    ((congrArg responses hsource).trans s.responses_sourceIfHeld)
  rcases hfollows.run s.sourceIfHeld hsource (hhost ▸ hrst) (hhost ▸ hheld.trans hlen) with
    ⟨k, u, r, m, hk, hrun, hpending, hu⟩ | hnone
  · exact .inl ⟨k, u, r, m, hk.trans hheld, hrun, hpending, hu⟩
  · exact .inr hnone

/-- Settles O45: of the two cases of `run_from_start` the one without a result is excluded, and the other has the result and
the count of the transaction function. -/
theorem edgesComputeTheTransactionFunction : Obligations.EdgesComputeTheTransactionFunction := by
  intro s hs r n hst hrst hlen htransaction
  obtain ⟨t, hstep, ⟨k, u, r', m, hk, hrun, hpending, hu⟩ | ⟨hnone, -⟩⟩ := run_from_start s hs hst hrst hlen
  · obtain ⟨rfl, rfl⟩ : r' = r ∧ m = n := by simpa using hu.agrees.symm.trans htransaction
    refine ⟨k + 1, u, Nat.succ_le_succ hk, (run_succ k _ t hstep).trans hrun, hu.idle, hu.result, hu.stream, ?_⟩
    rintro (_ | j) hpos hj
    · cases hpos
    · obtain ⟨v, hv, hpend⟩ := hpending j (Nat.lt_of_succ_lt_succ hj)
      exact ⟨v, (run_succ j _ t hstep).trans hv, hpend⟩
  · simp [hnone] at htransaction

/-- Settles O47: of the two cases of `run_from_start` the one with a result is excluded. -/
theorem transactionWithoutAnEndStaysBusy : Obligations.TransactionWithoutAnEndStaysBusy := by
  intro s hs k hst hrst hlen hnone hpos hk
  obtain ⟨t, hstep, ⟨_, u, r, m, -, -, -, hu⟩ | ⟨-, hpending⟩⟩ := run_from_start s hs hst hrst hlen
  · simp [hu.agrees] at hnone
  · obtain ⟨j, rfl⟩ := Nat.exists_eq_add_one.2 hpos
    obtain ⟨u, hrun, hu⟩ := hpending j (by omega)
    exact ⟨u, (run_succ j _ t hstep).trans hrun, hu⟩

/-- Settles O50: the transaction function decodes the frame behind the noise (O48), and the edges compute the function
(O45). -/
theorem retryOnAFreshFrameSucceeds : Obligations.RetryOnAFreshFrameSucceeds := by
  intro s hs noise p rest hst hrst hlen hp hstream hnoise heven
  have hdecoded := (transaction_of_noise_and_frame_iff noise p rest hp).2 ⟨hnoise, heven⟩
  rw [← hstream] at hdecoded
  obtain ⟨k, t, -, hrun, -, hresult, htstream, -⟩ :=
    edgesComputeTheTransactionFunction s hs _ _ hst hrst hlen hdecoded
  refine ⟨k, t, hrun, hresult, ?_⟩
  rw [htstream, hstream]
  exact List.drop_left' (by simp [byteResponses, frameBytes, hp])

end Sys2Proof.Machine
end

section
/-! The hard error of the byte source (R300). -/

namespace Sys2Proof.Machine

/-- After SERIAL the outputs show the error value and nothing else (R33, R35). -/
theorem State.outputs_of_raiseSerial (s : State) (e : SerialErr) : (s.raiseSerial e).outputs =
    { State.reset.outputs with resValid := true, resKind := 0b11#2, resSerialErr := e } := rfl

/-- Settles O16: in a state that reads a presented hard error selects BUSY.SERR, and its effect is `State.raiseSerial`. -/
theorem hardErrorEndsTheTransaction : Obligations.HardErrorEndsTheTransaction := by
  refine ⟨fun k e hk hidle hreach => ?_, fun e s => ⟨s.raiseSerial e, rfl, rfl, s.outputs_of_raiseSerial e⟩⟩
  have hfits := fits_fields_of_masked_eq _ _ _ hk
  obtain ⟨⟨hrst, hvalid⟩, herr⟩ : (k.rst = false ∧ k.inValid = true) ∧ k.inIsErr = true := by simpa using hfits
  rw [decode_eq_transitionFor, hrst, hvalid, herr, transitionFor_of_error _ _ _ _ _ _ hidle hreach]

end Sys2Proof.Machine
end

section
/-! The reset edge (R400). -/

namespace Sys2Proof.Machine

/-- A key with rst set selects RESET, whatever its other fields are (R75, R400). -/
theorem decode_of_rst (k : Key) (e : SerialErr) (hrst : k.rst = true) : decode k e = some .reset := by
  rw [decode_eq_transitionFor, hrst]
  rfl

/-- After reset the outputs are those of the reset state: they do not depend on the environment (R33, R41). -/
theorem State.outputs_resetRegisters (s : State) : s.resetRegisters.outputs = State.reset.outputs := rfl

/-- A reset edge accepts nothing, so the source holds what it presents (R31, R400). -/
theorem State.passEdge_source_of_rst (s : State) (hrst : s.hostPins.rst = true) : s.passEdge.source = s.sourceIfHeld :=
  s.passEdge_source.trans (s.source_held (s.accepts_of_rst hrst))

/-- Settles O11: the mask leaves only rst to the choice, RESET is `State.resetRegisters`, and `step_of_rst` applies it behind
an edge that accepts nothing. -/
theorem resetEdgeWritesEveryRegister : Obligations.ResetEdgeWritesEveryRegister := by
  refine ⟨fun k e hk => ?_, fun s => rfl, fun s hrst => ?_⟩
  · have hfits := fits_fields_of_masked_eq _ _ _ hk
    exact decode_of_rst k e (by simpa using hfits)
  · exact ⟨_, step_of_rst s hrst, s.passEdge_source_of_rst hrst, s.passEdge.outputs_resetRegisters, fun _ => rfl⟩

end Sys2Proof.Machine
end
